-- ==== Sys2Proof/Word.lean ====
section
/-! DEFINITION. The values of 00_scope.md R9: a nibble is 4 bits, a byte is 8 bits, both unsigned, bit 0 the least significant. A flag is a Bool. -/

namespace Sys2Proof

/-- A byte: 8 bits, 0..255 (R9). -/
abbrev Byte := BitVec 8

/-- A nibble: 4 bits, 0..15 (R9, R14). -/
abbrev Nibble := BitVec 4

end Sys2Proof
end

