-- ==== Sys2Proof/Machine/CrcEngine.lean ====
section
/-! DEFINITION. The CRC Engine's pure functions (41_crc8.md). -/

namespace Sys2Proof.Machine

/-- `POLY` of 00_scope.md R6, "the fixed polynomial constant". -/
def crcPoly : Byte := 0x8C#8

/-- One of the eight iterations of R120 on the accumulator and the working byte.
The test bit is bit 0 of `a ^ w`, fresh in each iteration, as the pseudocode of R120 has it. -/
def crcIteration (aw : Byte × Byte) : Byte × Byte :=
  if (aw.1 ^^^ aw.2) &&& 1#8 = 1#8 then ((aw.1 >>> 1) ^^^ crcPoly, aw.2 >>> 1)
  else (aw.1 >>> 1, aw.2 >>> 1)

/-- CRC8_STEP of R120: fold one byte into the accumulator. -/
def crcStep (acc b : Byte) : Byte := (Nat.repeat crcIteration 8 (acc, b)).1

/-- CRC8 of R121: the bytes folded in sequence order from accumulator 0. -/
def crcOf (xs : List Byte) : Byte := xs.foldl crcStep 0#8

end Sys2Proof.Machine
end

