-- ==== Sys2Proof/Machine/SymbolCodec.lean ====
section
/-! DEFINITION. The Symbol Codec's two pure functions (40_symbol_codec.md), and the splitting and assembling of a byte (30_encoding.md R82). -/

namespace Sys2Proof.Machine

/-- `b[7:4]` (R9, R82). -/
def hiNibble (b : Byte) : Nibble := b.extractLsb' 4 4

/-- `b[3:0]` (R9, R82). -/
def loNibble (b : Byte) : Nibble := b.extractLsb' 0 4

/-- The byte `{h, l}`: `h` in bits 7..4, `l` in bits 3..0 (R10, R82). -/
def joinNibbles (h l : Nibble) : Byte := (h.setWidth 8 <<< 4) ||| l.setWidth 8

/-- ENC of R110: the nibble above its bitwise complement. -/
def encSymbol (n : Nibble) : Byte := (n.setWidth 8 <<< 4) ||| (n ^^^ 0xF#4).setWidth 8

/-- The validity test of R81 and R111: the high nibble is the complement of the low one. -/
def symbolValid (s : Byte) : Bool := (s >>> 4) == ((s &&& 0x0F#8) ^^^ 0x0F#8)

/-- DEC of R111; `none` is its result Invalid. -/
def decSymbol (s : Byte) : Option Nibble := if symbolValid s then some (hiNibble s) else none

/-- `Sym(b)` of R83: the two symbols of a byte, its high nibble first (R64). -/
def symbolsOf (b : Byte) : List Byte := [encSymbol (hiNibble b), encSymbol (loNibble b)]

end Sys2Proof.Machine
end

