-- ==== Sys2Proof/Config.lean ====
section
/-! DEFINITION. What an implementation fixes (00_scope.md R6), and the free values the spec leaves open (opaque, no body). -/

namespace Sys2Proof

/-- The implementation parameters of R6 that are not an operation's operand, "each fixed for the lifetime of an instance". -/
structure Config where
  /-- The start-marker byte `STX` (R84). -/
  stx : Byte
  /-- The end-marker byte `ETX` (R84). -/
  etx : Byte
  /-- `ERR_W`, the width of the error counter in bits (D4). -/
  errW : Nat
  /-- `ERR_INIT`, the error counter's value after INIT (D5). -/
  errInit : Nat
  /-- `TS_W`, the width of the start timestamp in bits (D6). -/
  tsW : Nat
  deriving DecidableEq, Repr

/-- The legal values of R6, and the two constraints of R84: `STX != ETX`, and neither is a valid symbol. -/
def Config.wf (c : Config) : Bool :=
  c.stx != c.etx && !Machine.symbolValid c.stx && !Machine.symbolValid c.etx
    && decide (1 ≤ c.errW) && decide (c.errInit < 2 ^ c.errW) && decide (1 ≤ c.tsW)

/-- FREE VALUE (log 5): what the `k`-th `Now()` returns while the host has supplied no time
(20_memory.md R73: "a model treats each `Now()` as a free draw"). -/
opaque Config.freeNow : Nat → Nat

/-- FREE VALUE (log 7): what a buffer byte that nothing has written reads as
(20_memory.md R63: "the bytes of `buf` are unspecified"). -/
opaque Config.freeByte : Nat → Byte

end Sys2Proof
end

