-- ==== Sys2Proof/Machine/Params.lean ====
section
/-! DEFINITION. The values this model takes for the parameters of 00_scope.md R6 at reset. Statements hold for every well-formed Config. -/

namespace Sys2Proof.Machine

/-- `STX = 0x02`: PRESUMED, the spec's own choice from general knowledge (R84, D2; log 2). -/
def defaultStx : Byte := 0x02#8

/-- `ETX = 0x03`: PRESUMED, the spec's own choice from general knowledge (R84, D2; log 2). -/
def defaultEtx : Byte := 0x03#8

/-- The spec's defaults: ERR_W 32 (D4, log 3), ERR_INIT 0 (D5, log 4), TS_W 32 (D6, log 5). DESIGN CHOICE. -/
def defaultConfig : Config := ⟨defaultStx, defaultEtx, 32, 0, 32⟩

end Sys2Proof.Machine
end

