-- ==== Sys2Proof/Machine/Operands.lean ====
section
/-! DEFINITION. The operand forms of the host commands (30_encoding.md R88): how each is laid out after the command word, and the check each must pass. -/

namespace Sys2Proof.Machine

/-- A `nibble` operand is one byte with bits 7..4 zero (R88). -/
def nibbleOperandOk (b : Byte) : Bool := hiNibble b == 0#4

/-- A `bytes` operand has length 0..255 (R88). -/
def bytesOperandOk (xs : List Byte) : Bool := decide (xs.length ≤ 255)

/-- Read a one-byte operand (`nibble`, `byte` and `index` of R88): the byte and what follows it, or `none` where there is none. -/
def takeByte (bs : List Byte) : Option (Byte × List Byte) :=
  match bs with
  | [] => none
  | b :: rest => some (b, rest)

/-- Read a `bytes` operand (R88): "one length byte followed by that many bytes", and what follows; `none` where a byte is missing. -/
def takeBytes (bs : List Byte) : Option (List Byte × List Byte) :=
  match bs with
  | [] => none
  | n :: rest => if n.toNat ≤ rest.length then some (rest.take n.toNat, rest.drop n.toNat) else none

/-- Write a `bytes` operand (R88): its length byte, then its bytes. -/
def putBytes (xs : List Byte) : List Byte := BitVec.ofNat 8 xs.length :: xs

end Sys2Proof.Machine
end

