-- ==== Sys2Proof/Syntax.lean ====
section
/-! DEFINITION. The instructions: one constructor for each of the 39 rows of spec/opcode_table.json. -/

namespace Sys2Proof

/-- One constructor per row of the opcode table: the host commands of 30_encoding.md R89, the illegal command words of R90,
the two internal operations (R89), and the wire-byte classes of R85. -/
inductive Instr where
  /-- INIT c (R175): initialise the instance with capacity `c`. -/
  | init (c : Byte)
  /-- SHUTDOWN (R176). -/
  | shutdown
  /-- RESET (R174). -/
  | reset
  /-- POLL (R170): drain the RX interface. -/
  | poll
  /-- SEND p (R130): frame and transmit one payload. -/
  | send (p : List Byte)
  /-- ENC n (R110): the nibble operand travels as one byte (R88). -/
  | enc (n : Byte)
  /-- DEC s (R111). -/
  | dec (s : Byte)
  /-- CRC8 xs (R121). -/
  | crc8 (xs : List Byte)
  /-- RD_READY (R177). -/
  | rdReady
  /-- RD_LEN (R178). -/
  | rdLen
  /-- RD_DATA i (R179). -/
  | rdData (i : Byte)
  /-- RD_ERR (R180). -/
  | rdErr
  /-- RD_STARTED (R181). -/
  | rdStarted
  /-- RD_TSTART (R182). -/
  | rdTstart
  /-- The reserved command word 0x00 (R90). -/
  | reserved00
  /-- The reserved command word 0xF0 (R90). -/
  | reservedF0
  /-- A command word whose low nibble is not 0 (R90): bits 7..4 and bits 3..0. -/
  | illegalLowNibble (op low : Nibble)
  /-- CRC8_STEP acc b (R120), internal: no command word. -/
  | crc8Step (acc b : Byte)
  /-- PROCESS_BYTE b (R140), internal: no command word. -/
  | processByte (b : Byte)
  /-- The wire-byte class W_STX (R85, R141). -/
  | wStx
  /-- The wire-byte class W_ETX (R85, R142). -/
  | wEtx
  /-- The wire-byte class W_NOISE (R85, R143): the byte `b` outside a frame. -/
  | wNoise (b : Byte)
  /-- The wire-byte class W_SYM_0 (R85, R145 to R150): the symbol of nibble 0x0. -/
  | wSym0
  /-- The wire-byte class W_SYM_1 (R85, R145 to R150): the symbol of nibble 0x1. -/
  | wSym1
  /-- The wire-byte class W_SYM_2 (R85, R145 to R150): the symbol of nibble 0x2. -/
  | wSym2
  /-- The wire-byte class W_SYM_3 (R85, R145 to R150): the symbol of nibble 0x3. -/
  | wSym3
  /-- The wire-byte class W_SYM_4 (R85, R145 to R150): the symbol of nibble 0x4. -/
  | wSym4
  /-- The wire-byte class W_SYM_5 (R85, R145 to R150): the symbol of nibble 0x5. -/
  | wSym5
  /-- The wire-byte class W_SYM_6 (R85, R145 to R150): the symbol of nibble 0x6. -/
  | wSym6
  /-- The wire-byte class W_SYM_7 (R85, R145 to R150): the symbol of nibble 0x7. -/
  | wSym7
  /-- The wire-byte class W_SYM_8 (R85, R145 to R150): the symbol of nibble 0x8. -/
  | wSym8
  /-- The wire-byte class W_SYM_9 (R85, R145 to R150): the symbol of nibble 0x9. -/
  | wSym9
  /-- The wire-byte class W_SYM_A (R85, R145 to R150): the symbol of nibble 0xA. -/
  | wSymA
  /-- The wire-byte class W_SYM_B (R85, R145 to R150): the symbol of nibble 0xB. -/
  | wSymB
  /-- The wire-byte class W_SYM_C (R85, R145 to R150): the symbol of nibble 0xC. -/
  | wSymC
  /-- The wire-byte class W_SYM_D (R85, R145 to R150): the symbol of nibble 0xD. -/
  | wSymD
  /-- The wire-byte class W_SYM_E (R85, R145 to R150): the symbol of nibble 0xE. -/
  | wSymE
  /-- The wire-byte class W_SYM_F (R85, R145 to R150): the symbol of nibble 0xF. -/
  | wSymF
  /-- The wire-byte class W_BAD (R85, R144): the invalid byte `b` inside a frame. -/
  | wBad (b : Byte)
  deriving DecidableEq, Repr

end Sys2Proof
end

