-- ==== Sys2Proof/WellFormed.lean ====
section
/-! DEFINITION. Which instructions are well formed: the operand checks of 30_encoding.md R88 and the row conditions of R85 and R90 that concern the byte alone. -/

namespace Sys2Proof

/-- A well-formed instruction under the markers of `c`: a nibble operand below 16 and a `bytes` operand of at most 255 bytes (R88),
a nonzero low nibble in an illegal command word (R90), and in W_NOISE and W_BAD a byte that no row of smaller priority matches (R85, R93). -/
def Instr.wellFormed (c : Config) : Instr → Bool
  | .init _ => true
  | .shutdown => true
  | .reset => true
  | .poll => true
  | .send p => Machine.bytesOperandOk p
  | .enc n => Machine.nibbleOperandOk n
  | .dec _ => true
  | .crc8 xs => Machine.bytesOperandOk xs
  | .rdReady => true
  | .rdLen => true
  | .rdData _ => true
  | .rdErr => true
  | .rdStarted => true
  | .rdTstart => true
  | .reserved00 => true
  | .reservedF0 => true
  | .illegalLowNibble _ low => low != 0#4
  | .crc8Step _ _ => true
  | .processByte _ => true
  | .wStx => true
  | .wEtx => true
  | .wNoise b => b != c.stx && b != c.etx
  | .wSym0 => true
  | .wSym1 => true
  | .wSym2 => true
  | .wSym3 => true
  | .wSym4 => true
  | .wSym5 => true
  | .wSym6 => true
  | .wSym7 => true
  | .wSym8 => true
  | .wSym9 => true
  | .wSymA => true
  | .wSymB => true
  | .wSymC => true
  | .wSymD => true
  | .wSymE => true
  | .wSymF => true
  | .wBad b => b != c.stx && b != c.etx && !Machine.symbolValid b

end Sys2Proof
end

