-- ==== Sys2Proof/Decode.lean ====
section
/-! DEFINITION. The decoder, total on any bytes, and the encoder (30_encoding.md). The block has two encoding spaces that share byte values: host command words (R87 to R90) and received wire bytes (R85). -/

namespace Sys2Proof

/-- Where a byte stands: at the host interface, or on the wire; a wire byte's class also depends on `S.started` (R85). -/
inductive Space where
  /-- A host command word and its operands (R87, R88). -/
  | command
  /-- A byte that POLL has read, with `S.started` (R85). -/
  | wire (started : Bool)
  /-- No encoding: CRC8_STEP and PROCESS_BYTE "have no command code" (R89). -/
  | internal
  deriving DecidableEq, Repr

/-- The decoder's answer: an instruction and the bytes after it, or a rejection by name. -/
inductive Decoded where
  /-- The instruction, and the bytes that follow it. -/
  | ok (i : Instr) (rest : List Byte)
  /-- There is no byte to decode. -/
  | noWord
  /-- The command of this operation code ends before its operands do (log 16). -/
  | missingOperand (op : Nibble)
  /-- The internal operations have no encoding (R89). -/
  | noEncoding
  deriving DecidableEq, Repr

/-- The instruction of a one-byte operand, or the rejection. -/
def withByte (op : Nibble) (bs : List Byte) (f : Byte → Instr) : Decoded :=
  match Machine.takeByte bs with
  | some (b, rest) => .ok (f b) rest
  | none => .missingOperand op

/-- The instruction of a `bytes` operand, or the rejection. -/
def withBytes (op : Nibble) (bs : List Byte) (f : List Byte → Instr) : Decoded :=
  match Machine.takeBytes bs with
  | some (xs, rest) => .ok (f xs) rest
  | none => .missingOperand op

/-- The command code table of R89, by operation code; `bs` are the bytes after the command word. The last row is 0xF. -/
def decodeOp (op : Nibble) (bs : List Byte) : Decoded :=
  match op.toNat with
  | 0x0 => .ok .reserved00 bs
  | 0x1 => withByte op bs .init
  | 0x2 => .ok .shutdown bs
  | 0x3 => .ok .reset bs
  | 0x4 => .ok .poll bs
  | 0x5 => withBytes op bs .send
  | 0x6 => withByte op bs .enc
  | 0x7 => withByte op bs .dec
  | 0x8 => withBytes op bs .crc8
  | 0x9 => .ok .rdReady bs
  | 0xA => .ok .rdLen bs
  | 0xB => withByte op bs .rdData
  | 0xC => .ok .rdErr bs
  | 0xD => .ok .rdStarted bs
  | 0xE => .ok .rdTstart bs
  | _ => .ok .reservedF0 bs

/-- A host command (R87): the low nibble is tested first (R90), then the operation code selects the row of R89. -/
def decodeCommand (bs : List Byte) : Decoded :=
  match bs with
  | [] => .noWord
  | w :: rest =>
    if Machine.loNibble w = 0#4 then decodeOp (Machine.hiNibble w) rest
    else .ok (.illegalLowNibble (Machine.hiNibble w) (Machine.loNibble w)) rest

/-- The symbol row of a nibble (the table of R80). The last row is 0xF. -/
def symbolRow (n : Nibble) : Instr :=
  match n.toNat with
  | 0 => .wSym0
  | 1 => .wSym1
  | 2 => .wSym2
  | 3 => .wSym3
  | 4 => .wSym4
  | 5 => .wSym5
  | 6 => .wSym6
  | 7 => .wSym7
  | 8 => .wSym8
  | 9 => .wSym9
  | 10 => .wSymA
  | 11 => .wSymB
  | 12 => .wSymC
  | 13 => .wSymD
  | 14 => .wSymE
  | _ => .wSymF

/-- The class of a received byte, tested in the order of R85: STX, ETX, noise, valid symbol, otherwise bad. -/
def classify (c : Config) (started : Bool) (b : Byte) : Instr :=
  if b = c.stx then .wStx
  else if b = c.etx then .wEtx
  else if started = false then .wNoise b
  else match Machine.decSymbol b with
    | some n => symbolRow n
    | none => .wBad b

/-- The decoder of both spaces. -/
def decode (c : Config) (sp : Space) (bs : List Byte) : Decoded :=
  match sp with
  | .command => decodeCommand bs
  | .wire started =>
    match bs with
    | [] => .noWord
    | b :: rest => .ok (classify c started b) rest
  | .internal => .noEncoding

/-- The space an instruction's encoding stands in; W_NOISE is received outside a frame, W_SYM and W_BAD inside one (R85). -/
def Instr.space : Instr → Space
  | .init _ => .command
  | .shutdown => .command
  | .reset => .command
  | .poll => .command
  | .send _ => .command
  | .enc _ => .command
  | .dec _ => .command
  | .crc8 _ => .command
  | .rdReady => .command
  | .rdLen => .command
  | .rdData _ => .command
  | .rdErr => .command
  | .rdStarted => .command
  | .rdTstart => .command
  | .reserved00 => .command
  | .reservedF0 => .command
  | .illegalLowNibble _ _ => .command
  | .crc8Step _ _ => .internal
  | .processByte _ => .internal
  | .wStx => .wire true
  | .wEtx => .wire true
  | .wNoise _ => .wire false
  | .wSym0 => .wire true
  | .wSym1 => .wire true
  | .wSym2 => .wire true
  | .wSym3 => .wire true
  | .wSym4 => .wire true
  | .wSym5 => .wire true
  | .wSym6 => .wire true
  | .wSym7 => .wire true
  | .wSym8 => .wire true
  | .wSym9 => .wire true
  | .wSymA => .wire true
  | .wSymB => .wire true
  | .wSymC => .wire true
  | .wSymD => .wire true
  | .wSymE => .wire true
  | .wSymF => .wire true
  | .wBad _ => .wire true

/-- The encoder: the command word of R89 with its operands of R88, or the wire byte of R85; `none` for the internal operations (R89). -/
def encode (c : Config) : Instr → Option (List Byte)
  | .init x => some [0x10#8, x]
  | .shutdown => some [0x20#8]
  | .reset => some [0x30#8]
  | .poll => some [0x40#8]
  | .send p => some (0x50#8 :: Machine.putBytes p)
  | .enc n => some [0x60#8, n]
  | .dec s => some [0x70#8, s]
  | .crc8 xs => some (0x80#8 :: Machine.putBytes xs)
  | .rdReady => some [0x90#8]
  | .rdLen => some [0xA0#8]
  | .rdData i => some [0xB0#8, i]
  | .rdErr => some [0xC0#8]
  | .rdStarted => some [0xD0#8]
  | .rdTstart => some [0xE0#8]
  | .reserved00 => some [0x00#8]
  | .reservedF0 => some [0xF0#8]
  | .illegalLowNibble op low => some [Machine.joinNibbles op low]
  | .crc8Step _ _ => none
  | .processByte _ => none
  | .wStx => some [c.stx]
  | .wEtx => some [c.etx]
  | .wNoise b => some [b]
  | .wSym0 => some [Machine.encSymbol 0x0#4]
  | .wSym1 => some [Machine.encSymbol 0x1#4]
  | .wSym2 => some [Machine.encSymbol 0x2#4]
  | .wSym3 => some [Machine.encSymbol 0x3#4]
  | .wSym4 => some [Machine.encSymbol 0x4#4]
  | .wSym5 => some [Machine.encSymbol 0x5#4]
  | .wSym6 => some [Machine.encSymbol 0x6#4]
  | .wSym7 => some [Machine.encSymbol 0x7#4]
  | .wSym8 => some [Machine.encSymbol 0x8#4]
  | .wSym9 => some [Machine.encSymbol 0x9#4]
  | .wSymA => some [Machine.encSymbol 0xA#4]
  | .wSymB => some [Machine.encSymbol 0xB#4]
  | .wSymC => some [Machine.encSymbol 0xC#4]
  | .wSymD => some [Machine.encSymbol 0xD#4]
  | .wSymE => some [Machine.encSymbol 0xE#4]
  | .wSymF => some [Machine.encSymbol 0xF#4]
  | .wBad b => some [b]

/-! ## The host's probe of the decoder -/

/-- The longest instruction: a command word, a length byte and 255 bytes (R88). -/
def longestInstr : Nat := 257

/-- The bytes of a table word: bit 0 is the least significant bit of the first byte; every bit at or above `nbits` is 0. -/
def tableBytes (nbits w : Nat) : List Byte :=
  (List.range longestInstr).map fun k => BitVec.ofNat 8 ((w % 2 ^ nbits) / 2 ^ (8 * k))

/-- The space a table word is read in (DESIGN CHOICE, log 15): a byte with a nonzero low nibble that is a marker or a valid symbol
is one of the table's wire-byte rows; every other word is a host command. -/
def tableSpace (c : Config) (b : Byte) : Space :=
  if Machine.loNibble b ≠ 0#4 ∧ (b = c.stx ∨ b = c.etx ∨ Machine.symbolValid b = true) then .wire true else .command

/-- The instruction the decoder reads from an opcode-table word. -/
def decodeTableWord (nbits w : Nat) : Option Instr :=
  match decode Machine.defaultConfig (tableSpace Machine.defaultConfig ((tableBytes nbits w).headD 0#8)) (tableBytes nbits w) with
  | .ok i _ => some i
  | .noWord => none
  | .missingOperand _ => none
  | .noEncoding => none

end Sys2Proof
end

