-- ==== Sys2Proof/Machine/State.lean ====
section
/-! DEFINITION. The state: every field of 10_state.md R30, the parameters of 00_scope.md R6, the interfaces of R8, and the model's own fields (INVENTORY.md, State). -/

namespace Sys2Proof.Machine

/-- The lifecycle state (10_state.md R31). -/
inductive Life where
  /-- Created, not yet initialised. -/
  | uninit
  /-- Between INIT and SHUTDOWN. -/
  | live
  /-- After SHUTDOWN. -/
  | down
  deriving DecidableEq, Repr

/-- The reasons of a contract fault (60_exceptions.md R206). An operation that raises one answers a next state whose `fault` holds it;
every later step stops with it (R207). Each is safe: the machine stops where the source gives no behaviour (log 8). -/
inductive Fault where
  /-- `F_NOT_LIVE`: raised by SHUTDOWN, RESET, POLL, SEND and RD_* when `life` is not LIVE. Safe. -/
  | notLive
  /-- `F_REINIT`: raised by INIT when `life` is not UNINIT. Safe. -/
  | reinit
  /-- `F_POLL_READY`: raised by POLL when a packet is ready. Safe. -/
  | pollReady
  /-- `F_BAD_CMD`: raised by an illegal command word and by ENC's operand byte above 0x0F. Safe. -/
  | badCmd
  /-- `F_TOO_LONG`: raised by SEND and CRC8 when the operand is longer than 255 bytes. Safe. -/
  | tooLong
  /-- `F_TRANSPORT`: raised by POLL when `RxRead()` finds no byte after a positive `RxAvailable()`. Safe. -/
  | transport
  deriving DecidableEq, Repr

/-- Why the model gives a step no meaning. -/
inductive Refusal where
  /-- Raised by `exec` for an instruction that has no meaning yet. Safe. No arm of this model raises it. -/
  | notModelled (mnemonic : String)
  /-- Raised by `step` when a command's bytes end before its operands (log 16). Safe: the host interface has no such command (R88). -/
  | truncatedCommand
  /-- Raised by `step` when the host calls an internal operation or a wire-byte class: "the host cannot invoke them alone" (30_encoding.md R89; log 17). Safe. -/
  | internalOperation
  deriving DecidableEq, Repr

/-- PROCESS_BYTE's result (43_receive_fsm.md R140). -/
inductive ByteStatus where
  /-- `Completed`: a packet is ready. -/
  | completed
  /-- `Continue`. -/
  | continued
  deriving DecidableEq, Repr

/-- What an operation returns (the `result` column of 30_encoding.md R89 and of the opcode table). -/
inductive OpResult where
  /-- The operation returns no value. -/
  | unit
  /-- A flag: POLL, RD_READY, RD_STARTED. -/
  | flag (v : Bool)
  /-- A byte: ENC, CRC8, CRC8_STEP, RD_LEN, RD_DATA. -/
  | byte (v : Byte)
  /-- DEC's `Valid(n)`. -/
  | nibble (n : Nibble)
  /-- DEC's `Invalid`. -/
  | invalid
  /-- `none`: an observation outside its validity (RD_LEN, RD_DATA, RD_TSTART; D12). -/
  | absent
  /-- RD_ERR's `ERR_W` bits. -/
  | count (v : Nat)
  /-- RD_TSTART's `TS_W` bits. -/
  | stamp (v : Nat)
  /-- PROCESS_BYTE's result. -/
  | status (v : ByteStatus)
  deriving DecidableEq, Repr

/-- One host step that is not an operation of the block (30_encoding.md R92, 44_host_operations.md R185). -/
inductive EnvStep where
  /-- `ARRIVE b0 b1 ...`: the transport appends these bytes to the RX stream. -/
  | arrive (bs : List Byte)
  /-- `TIME t`: every later `Now()` returns `t` until the next TIME. -/
  | time (t : Nat)
  /-- `LOOP`: the TX stream moves to the end of the RX stream. -/
  | loop
  /-- A sink is attached (20_memory.md R72, D14). -/
  | attachSink
  /-- The sink is detached. -/
  | detachSink
  /-- A byte source is attached (R71, D15). -/
  | attachSource
  /-- The byte source is detached. -/
  | detachSource
  /-- What the transport answers to `RxAvailable()` from now on: an integer of its own, or (`none`) the stream's length (log 13). -/
  | claim (k : Option Int)
  deriving DecidableEq, Repr

/-- One entry of the host's script: what the host does next (log 1). -/
inductive HostStep where
  /-- Bytes at the host interface: command words, each with its operands (30_encoding.md R87, R88). -/
  | command (bs : List Byte)
  /-- A direct call of an operation, the source's own form (R87: "the source defines the operations as calls"). -/
  | call (i : Instr)
  /-- A host step between two operations. -/
  | env (e : EnvStep)
  /-- Host steps that take place inside the POLL just before this entry, before its next `RxAvailable()` (R173, D17);
  where no POLL is running they take place between operations. -/
  | during (es : List EnvStep)
  deriving DecidableEq, Repr

/-- The machine. -/
structure State where
  /-- The parameters of R6; no operation writes them. -/
  cfg : Config
  /-- `life` (R31). -/
  life : Life
  /-- `cap` (R38). -/
  cap : Byte
  /-- `buf` (R37, R60): the bytes written so far, by rising index; an index that is not listed holds no value (R63). -/
  buf : List Host.Cell
  /-- `pos` (R36). -/
  pos : Byte
  /-- `started` (R32). -/
  started : Bool
  /-- `etx_seen` (R33). -/
  etxSeen : Bool
  /-- `hi_pend` (R34). -/
  hiPend : Bool
  /-- `hi_nib` (R35). -/
  hiNib : Nibble
  /-- `t_start` (R39), `TS_W` bits: below `2 ^ TS_W` (log 24). -/
  tStart : Nat
  /-- `ready` (R40). -/
  ready : Bool
  /-- `err_cnt` (R41), `ERR_W` bits: below `2 ^ ERR_W` (log 24). -/
  errCnt : Nat
  /-- `fault` (R42). -/
  fault : Option Fault
  /-- The RX stream, head first (R60, R71). -/
  rx : List Byte
  /-- Whether a byte source is attached (R71). -/
  rxAttached : Bool
  /-- What the transport answers to `RxAvailable()`: its own integer, or the stream's length (log 13). -/
  rxClaim : Option Int
  /-- The TX stream, in the order written (R60, R72). -/
  tx : List Byte
  /-- `TxAttached()` (R72). -/
  txAttached : Bool
  /-- What every `Now()` returns, once the host has supplied a time (R73, R92; log 5). -/
  time : Option Nat
  /-- MODEL: what the host does next (log 1). -/
  script : List HostStep
  /-- MODEL: the result of the last operation that returned (log 20). -/
  result : OpResult
  /-- MODEL: how many free values `Now()` has drawn (log 5). -/
  draws : Nat
  deriving DecidableEq, Repr

/-- Is every address above `lo` and are they strictly rising? -/
def memoryRises (lo : Nat) : List Host.Cell → Bool
  | [] => true
  | (a, _) :: rest => decide (lo ≤ a) && memoryRises (a + 1) rest

/-- The buffer's canonical form: addresses strictly rising, and every address below the capacity.
An unlisted address holds no value, so no entry can repeat it (log 7). -/
def Memory.wf (cap : Byte) (m : List Host.Cell) : Bool :=
  memoryRises 0 m && m.all fun cell => decide (cell.1 < cap.toNat)

/-- Creation (10_state.md R48): `life = UNINIT`, `fault = none`, "and every other field is absent"; the values of the absent fields
are the model's (DESIGN CHOICE, log 6), as are those of the interfaces (logs 5, 12, 13) and of the model's own fields (logs 1, 5, 20). -/
def State.reset : State :=
  { cfg := defaultConfig
    life := .uninit
    cap := 0#8
    buf := []
    pos := 0#8
    started := false
    etxSeen := false
    hiPend := false
    hiNib := 0#4
    tStart := 0
    ready := false
    errCnt := 0
    fault := none
    rx := []
    rxAttached := false
    rxClaim := none
    tx := []
    txAttached := false
    time := none
    script := []
    result := .unit
    draws := 0 }

end Sys2Proof.Machine
end

