-- ==== Sys2Proof/Machine/Ops.lean ====
section
/-! DEFINITION. The named operations over the state: the primitives of 00_scope.md R12, the reset action (10_state.md R49), the error action (43_receive_fsm.md R152) and raising a contract fault (60_exceptions.md R206). -/

namespace Sys2Proof.Machine

/-! ## The receive buffer (20_memory.md R60 to R63) -/

/-- The byte listed at an index, if one has been written. -/
def bufLookup (m : List Host.Cell) (i : Nat) : Option Byte :=
  match m with
  | [] => none
  | (a, v) :: rest => if a = i then some v else bufLookup rest i

/-- Write one byte, keeping the canonical form. -/
def bufInsert (m : List Host.Cell) (i : Nat) (v : Byte) : List Host.Cell :=
  match m with
  | [] => [(i, v)]
  | (a, w) :: rest =>
    if i < a then (i, v) :: (a, w) :: rest
    else if i = a then (i, v) :: rest
    else (a, w) :: bufInsert rest i v

/-- `BufRead(i)` (R62). A byte that nothing has written is a free value (R63; log 7). -/
def bufRead (s : State) (i : Nat) : Byte := (bufLookup s.buf i).getD (Config.freeByte i)

/-- `BufWrite(i, v)` (R61). -/
def bufWrite (s : State) (i : Nat) (v : Byte) : State := { s with buf := bufInsert s.buf i v }

/-- `buf[0..pos-1]`, in index order (R147). -/
def payload (s : State) : List Byte := (List.range s.pos.toNat).map (bufRead s)

/-! ## The transport (20_memory.md R71, R72) -/

/-- `RxAvailable()` (R71): 0 where no source is attached (D15); else the transport's own claim, or how many bytes the stream holds. -/
def rxAvailable (s : State) : Int :=
  if s.rxAttached then
    match s.rxClaim with
    | some k => k
    | none => (s.rx.length : Int)
  else 0

/-- The RX stream after `RxRead()` has consumed its head byte (R66, R71): what is left of it. -/
def setRx (rest : List Byte) (s : State) : State := { s with rx := rest }

/-- `TxWrite(b)` (R72): `b` is appended to the TX stream; the count it answers is not read (D13). -/
def txWrite (s : State) (b : Byte) : State := { s with tx := s.tx ++ [b] }

/-- A byte sent "as two symbols", the high nibble first (R64, R130). -/
def txByte (s : State) (b : Byte) : State := txWrite (txWrite s (encSymbol (hiNibble b))) (encSymbol (loNibble b))

/-! ## Time (20_memory.md R73) -/

/-- The value `Now()` returns, `TS_W` bits: the host's, or a free draw while the host has supplied none (log 5). -/
def nowValue (s : State) : Nat :=
  match s.time with
  | some t => t % 2 ^ s.cfg.tsW
  | none => Config.freeNow s.draws % 2 ^ s.cfg.tsW

/-- The number of free draws after one `Now()`. -/
def nowDraws (s : State) : Nat :=
  match s.time with
  | some _ => s.draws
  | none => s.draws + 1

/-! ## The reset action, the error action, contract faults, results -/

/-- `ResetAction()` (R49): `err_cnt`, `cap`, `buf`, `life` and `fault` are unchanged. -/
def resetAction (s : State) : State :=
  { s with started := false, ready := false, etxSeen := false, hiPend := false, hiNib := 0#4, pos := 0#8, tStart := 0 }

/-- One more protocol violation, modulo `2 ^ ERR_W` (R41, R152; D4). -/
def errBump (c : Config) (n : Nat) : Nat := (n + 1) % 2 ^ c.errW

/-- `ErrorAction()` (R152): "the reset and the increment are one indivisible effect of the byte". -/
def errorAction (s : State) : State :=
  { resetAction s with errCnt := errBump s.cfg s.errCnt }

/-- TAKING A CONTRACT FAULT, `raise Fault(r)` (R12, R206): the operation ends with no effect other than setting `fault`,
which once set keeps its reason (R207). There is no saved state, no vector and no return (R210, R211). -/
def raiseFault (r : Fault) (s : State) : State :=
  { s with fault := match s.fault with
      | none => some r
      | some q => some q }

/-- `return v` (R12). -/
def setResult (r : OpResult) (s : State) : State := { s with result := r }

/-- MODEL: what the host still has to do, once an entry of its script has been taken (log 1). -/
def setScript (rest : List HostStep) (s : State) : State := { s with script := rest }

/-- An operation that is legal only while `life` is LIVE (44_host_operations.md R184): `F_NOT_LIVE` otherwise, before anything else. -/
def whenLive (s : State) (f : State → State) : State :=
  if s.life = .live then f s else raiseFault .notLive s

end Sys2Proof.Machine
end

