-- ==== Sys2Proof/Machine/Codec.lean ====
section
/-! DEFINITION. ENC and DEC as host commands (40_symbol_codec.md). Legal in every `life` value (R184). -/

namespace Sys2Proof.Machine

/-- ENC n (R110): an operand byte above 0x0F "is refused at the host interface with `F_BAD_CMD`" (R88). -/
def execEnc (n : Byte) (s : State) : Host.Outcome State Fault Refusal :=
  .next (if nibbleOperandOk n then setResult (.byte (encSymbol (loNibble n))) s else raiseFault .badCmd s)

/-- DEC s (R111): "`Invalid` is a result, not a fault". -/
def execDec (b : Byte) (s : State) : Host.Outcome State Fault Refusal :=
  .next (setResult (match decSymbol b with
    | some n => .nibble n
    | none => .invalid) s)

end Sys2Proof.Machine
end

