-- ==== Sys2Proof/Machine/Crc.lean ====
section
/-! DEFINITION. CRC8 as a host command and CRC8_STEP, the operation inside it (41_crc8.md). Legal in every `life` value (R184). -/

namespace Sys2Proof.Machine

/-- CRC8_STEP acc b (R120). -/
def execCrc8Step (acc b : Byte) (s : State) : Host.Outcome State Fault Refusal := .next (setResult (.byte (crcStep acc b)) s)

/-- CRC8 xs (R121): an operand longer than 255 bytes "is refused" with `F_TOO_LONG` (R88, R206). -/
def execCrc8 (xs : List Byte) (s : State) : Host.Outcome State Fault Refusal :=
  .next (if bytesOperandOk xs then setResult (.byte (crcOf xs)) s else raiseFault .tooLong s)

end Sys2Proof.Machine
end

