-- ==== Sys2Proof/Machine/Encoder.lean ====
section
/-! DEFINITION. The Frame Encoder: SEND (42_frame_encoder.md). -/

namespace Sys2Proof.Machine

/-- `Frame(p)` of 30_encoding.md R83. -/
def frameOf (c : Config) (p : List Byte) : List Byte :=
  [c.stx] ++ p.flatMap symbolsOf ++ [c.etx] ++ symbolsOf (crcOf p)

/-- The writes of R130: the start marker, the payload's symbols in order, the end marker, the checksum's symbols. -/
def transmit (p : List Byte) (s : State) : State :=
  txByte (txWrite (p.foldl txByte (txWrite s s.cfg.stx)) s.cfg.etx) (crcOf p)

/-- SEND p (R130): `F_NOT_LIVE`, `F_TOO_LONG`; with no sink it "writes nothing and returns normally" (R131). -/
def execSend (p : List Byte) (s : State) : Host.Outcome State Fault Refusal :=
  .next (whenLive s fun s =>
    if bytesOperandOk p then setResult .unit (if s.txAttached then transmit p s else s)
    else raiseFault .tooLong s)

end Sys2Proof.Machine
end

