-- ==== Sys2Proof/Machine/Lifecycle.lean ====
section
/-! DEFINITION. INIT, SHUTDOWN and RESET (44_host_operations.md R174 to R176). -/

namespace Sys2Proof.Machine

/-- The writes of INIT (R175, 10_state.md R48): a buffer of `c` bytes whose contents are unspecified, the counter's initial value, the reset action, LIVE. -/
def initialise (c : Byte) (s : State) : State :=
  { resetAction { s with cap := c, buf := [], errCnt := s.cfg.errInit } with life := .live }

/-- INIT c (R175): `F_REINIT` unless `life` is UNINIT. -/
def execInit (c : Byte) (s : State) : Host.Outcome State Fault Refusal :=
  .next (if s.life = .uninit then setResult .unit (initialise c s) else raiseFault .reinit s)

/-- SHUTDOWN (R176): the buffer is released; no other field is written (log 26). -/
def execShutdown (s : State) : Host.Outcome State Fault Refusal :=
  .next (whenLive s fun s => setResult .unit { s with buf := [], life := .down })

/-- RESET (R174): the reset action, legal in every receive state; it counts no error. -/
def execReset (s : State) : Host.Outcome State Fault Refusal :=
  .next (whenLive s fun s => setResult .unit (resetAction s))

end Sys2Proof.Machine
end

