-- ==== Sys2Proof/Machine/Observe.lean ====
section
/-! DEFINITION. The observation surface: the six read operations (44_host_operations.md R177 to R182). Each requires `life = LIVE` and writes nothing. -/

namespace Sys2Proof.Machine

/-- What RD_LEN returns (R178): the length in Complete, otherwise none. -/
def lenView (s : State) : OpResult := if s.ready then .byte s.pos else .absent

/-- What RD_DATA returns (R179): a byte of the payload in Complete below the length, otherwise none. -/
def dataView (i : Byte) (s : State) : OpResult :=
  if s.ready ∧ i < s.pos then .byte (bufRead s i.toNat) else .absent

/-- What RD_TSTART returns (R182): the timestamp while a packet has started, otherwise none. -/
def startView (s : State) : OpResult := if s.started then .stamp s.tStart else .absent

/-- RD_READY (R177). -/
def execRdReady (s : State) : Host.Outcome State Fault Refusal := .next (whenLive s fun s => setResult (.flag s.ready) s)

/-- RD_LEN (R178). -/
def execRdLen (s : State) : Host.Outcome State Fault Refusal := .next (whenLive s fun s => setResult (lenView s) s)

/-- RD_DATA i (R179). -/
def execRdData (i : Byte) (s : State) : Host.Outcome State Fault Refusal := .next (whenLive s fun s => setResult (dataView i s) s)

/-- RD_ERR (R180). -/
def execRdErr (s : State) : Host.Outcome State Fault Refusal := .next (whenLive s fun s => setResult (.count s.errCnt) s)

/-- RD_STARTED (R181). -/
def execRdStarted (s : State) : Host.Outcome State Fault Refusal := .next (whenLive s fun s => setResult (.flag s.started) s)

/-- RD_TSTART (R182). -/
def execRdTstart (s : State) : Host.Outcome State Fault Refusal := .next (whenLive s fun s => setResult (startView s) s)

end Sys2Proof.Machine
end

