-- ==== Sys2Proof/Machine/HostSteps.lean ====
section
/-! DEFINITION. The host steps that are not operations of the block (30_encoding.md R92, 20_memory.md R71 to R73): what each does to the interfaces. None touches the block's own fields. -/

namespace Sys2Proof.Machine

/-- One host step. -/
def applyEnv (e : EnvStep) (s : State) : State :=
  match e with
  | .arrive bs => { s with rx := s.rx ++ bs }
  | .time t => { s with time := some t }
  | .loop => { s with rx := s.rx ++ s.tx, tx := [] }
  | .attachSink => { s with txAttached := true }
  | .detachSink => { s with txAttached := false }
  | .attachSource => { s with rxAttached := true }
  | .detachSource => { s with rxAttached := false }
  | .claim k => { s with rxClaim := k }

/-- Host steps in order. -/
def applyEnvs (es : List EnvStep) (s : State) : State := es.foldl (fun s e => applyEnv e s) s

end Sys2Proof.Machine
end

