-- ==== Sys2Proof/Machine/Flags.lean ====
section
/-! DEFINITION. The status flags: the receive states read off them (10_state.md R43) and the flag updates of the markers and of the nibble pair (43_receive_fsm.md). The block has no condition codes. -/

namespace Sys2Proof.Machine

/-- The four states of the receive state machine (R43, R14). -/
inductive RxPhase where
  /-- `started = 0`. -/
  | idle
  /-- `started = 1`, `etx_seen = 0`, `ready = 0`. -/
  | inFrame
  /-- `started = 1`, `etx_seen = 1`, `ready = 0`. -/
  | awaitingChecksum
  /-- `ready = 1`. -/
  | complete
  deriving DecidableEq, Repr

/-- The view of R43. -/
def rxPhase (s : State) : RxPhase :=
  if s.ready then .complete
  else if s.started then (if s.etxSeen then .awaitingChecksum else .inFrame)
  else .idle

/-- The writes of a start marker (R141): InFrame is entered, the position and the nibble assembly are reset, the time is recorded. -/
def openFrame (s : State) : State :=
  { s with started := true, etxSeen := false, pos := 0#8, hiPend := false, hiNib := 0#4, tStart := nowValue s, draws := nowDraws s }

/-- The write of an end marker (R142): `etx_seen` only (D10). -/
def markEnd (s : State) : State := { s with etxSeen := true }

/-- The writes of a first symbol (R145). -/
def holdNibble (n : Nibble) (s : State) : State := { s with hiNib := n, hiPend := true }

/-- The writes of a second symbol before its byte is used (R146). -/
def clearPair (s : State) : State := { s with hiPend := false, hiNib := 0#4 }

/-- The write of a checksum match (R147). -/
def markReady (s : State) : State := { s with ready := true }

/-- The writes of an appended payload byte (R149). -/
def appendByte (v : Byte) (s : State) : State :=
  { bufWrite s s.pos.toNat v with pos := s.pos + 1#8 }

end Sys2Proof.Machine
end

