-- ==== Sys2Proof/Machine/Receive.lean ====
section
/-! DEFINITION. The receive state machine (43_receive_fsm.md): PROCESS_BYTE case by case, and the meanings of the wire-byte rows and of PROCESS_BYTE. Each case answers PROCESS_BYTE's result and the state after the byte. -/

namespace Sys2Proof.Machine

/-! ## The cases -/

/-- R141: a start marker "unconditionally re-enters InFrame"; no error is counted. -/
def startMarker (s : State) : ByteStatus × State := (.continued, openFrame s)

/-- R142: an end marker sets the "awaiting checksum" flag. -/
def endMarker (s : State) : ByteStatus × State := (.continued, markEnd s)

/-- R143: a non-marker byte outside a frame is "silently discarded, no error counted". -/
def noiseByte (s : State) : ByteStatus × State := (.continued, s)

/-- R144: an invalid symbol inside a frame, the violation InvalidSymbol (60_exceptions.md R201). -/
def invalidSymbol (s : State) : ByteStatus × State := (.continued, errorAction s)

/-- R147 and R148: the completed byte is compared with `crc8` of the accumulated payload; a match completes the packet,
a mismatch is the violation ChecksumMismatch (R202). -/
def checksumByte (v : Byte) (s : State) : ByteStatus × State :=
  if v = crcOf (payload s) then (.completed, markReady s) else (.continued, errorAction s)

/-- R149 and R150: the completed byte is appended while there is room; a full buffer is the violation BufferOverflow (R203). -/
def payloadByte (v : Byte) (s : State) : ByteStatus × State :=
  if s.pos < s.cap then (.continued, appendByte v s) else (.continued, errorAction s)

/-- R146: the pair's byte `v` is the checksum after an end marker, else payload. -/
def completedByte (v : Byte) (s : State) : ByteStatus × State :=
  if s.etxSeen then checksumByte v s else payloadByte v s

/-- R145 and R146: a valid symbol inside a frame is held as the high nibble, or completes the byte of the pair. -/
def symbolByte (n : Nibble) (s : State) : ByteStatus × State :=
  if s.hiPend then completedByte (joinNibbles s.hiNib n) (clearPair s)
  else (.continued, holdNibble n s)

/-- PROCESS_BYTE of R140: "exactly one branch runs for each byte", in the order of R85 and R209.
Its precondition (`life = LIVE`, `ready = 0`) is POLL's to ensure (log 25). -/
def receiveByte (b : Byte) (s : State) : ByteStatus × State :=
  if b = s.cfg.stx then startMarker s
  else if b = s.cfg.etx then endMarker s
  else if s.started = false then noiseByte s
  else match decSymbol b with
    | none => invalidSymbol s
    | some n => symbolByte n s

/-! ## The rows -/

/-- The row's result is PROCESS_BYTE's. -/
def finishByte (r : ByteStatus × State) : State := setResult (.status r.1) r.2

/-- A symbol row inside a frame; outside one the same byte is noise (R143; log 18). -/
def symbolInFrame (n : Nibble) (s : State) : ByteStatus × State :=
  if s.started then symbolByte n s else noiseByte s

/-- PROCESS_BYTE b (R140). -/
def execProcessByte (b : Byte) (s : State) : Host.Outcome State Fault Refusal := .next (finishByte (receiveByte b s))

/-- W_STX (R141). -/
def execWStx (s : State) : Host.Outcome State Fault Refusal := .next (finishByte (startMarker s))

/-- W_ETX (R142). -/
def execWEtx (s : State) : Host.Outcome State Fault Refusal := .next (finishByte (endMarker s))

/-- W_NOISE (R143); inside a frame the byte is no noise and is what PROCESS_BYTE makes of it (log 18). -/
def execWNoise (b : Byte) (s : State) : Host.Outcome State Fault Refusal :=
  .next (finishByte (if s.started then receiveByte b s else noiseByte s))

/-- W_BAD (R144); outside a frame the same byte is noise (R143; log 18). The byte itself is not recorded (R204). -/
def execWBad (_b : Byte) (s : State) : Host.Outcome State Fault Refusal :=
  .next (finishByte (if s.started then invalidSymbol s else noiseByte s))

/-- W_SYM_0 (R145 to R150). -/
def execWSym0 (s : State) : Host.Outcome State Fault Refusal := .next (finishByte (symbolInFrame 0x0#4 s))

/-- W_SYM_1 (R145 to R150). -/
def execWSym1 (s : State) : Host.Outcome State Fault Refusal := .next (finishByte (symbolInFrame 0x1#4 s))

/-- W_SYM_2 (R145 to R150). -/
def execWSym2 (s : State) : Host.Outcome State Fault Refusal := .next (finishByte (symbolInFrame 0x2#4 s))

/-- W_SYM_3 (R145 to R150). -/
def execWSym3 (s : State) : Host.Outcome State Fault Refusal := .next (finishByte (symbolInFrame 0x3#4 s))

/-- W_SYM_4 (R145 to R150). -/
def execWSym4 (s : State) : Host.Outcome State Fault Refusal := .next (finishByte (symbolInFrame 0x4#4 s))

/-- W_SYM_5 (R145 to R150). -/
def execWSym5 (s : State) : Host.Outcome State Fault Refusal := .next (finishByte (symbolInFrame 0x5#4 s))

/-- W_SYM_6 (R145 to R150). -/
def execWSym6 (s : State) : Host.Outcome State Fault Refusal := .next (finishByte (symbolInFrame 0x6#4 s))

/-- W_SYM_7 (R145 to R150). -/
def execWSym7 (s : State) : Host.Outcome State Fault Refusal := .next (finishByte (symbolInFrame 0x7#4 s))

/-- W_SYM_8 (R145 to R150). -/
def execWSym8 (s : State) : Host.Outcome State Fault Refusal := .next (finishByte (symbolInFrame 0x8#4 s))

/-- W_SYM_9 (R145 to R150). -/
def execWSym9 (s : State) : Host.Outcome State Fault Refusal := .next (finishByte (symbolInFrame 0x9#4 s))

/-- W_SYM_A (R145 to R150). -/
def execWSymA (s : State) : Host.Outcome State Fault Refusal := .next (finishByte (symbolInFrame 0xA#4 s))

/-- W_SYM_B (R145 to R150). -/
def execWSymB (s : State) : Host.Outcome State Fault Refusal := .next (finishByte (symbolInFrame 0xB#4 s))

/-- W_SYM_C (R145 to R150). -/
def execWSymC (s : State) : Host.Outcome State Fault Refusal := .next (finishByte (symbolInFrame 0xC#4 s))

/-- W_SYM_D (R145 to R150). -/
def execWSymD (s : State) : Host.Outcome State Fault Refusal := .next (finishByte (symbolInFrame 0xD#4 s))

/-- W_SYM_E (R145 to R150). -/
def execWSymE (s : State) : Host.Outcome State Fault Refusal := .next (finishByte (symbolInFrame 0xE#4 s))

/-- W_SYM_F (R145 to R150). -/
def execWSymF (s : State) : Host.Outcome State Fault Refusal := .next (finishByte (symbolInFrame 0xF#4 s))

end Sys2Proof.Machine
end

