-- ==== Sys2Proof/Machine/Poll.lean ====
section
/-! DEFINITION. POLL, the drain operation (44_host_operations.md R170 to R173). -/

namespace Sys2Proof.Machine

/-- How one iteration of POLL's loop ends. -/
inductive Iteration where
  /-- The loop goes on. -/
  | again (s : State)
  /-- POLL returns, or raises F_TRANSPORT. -/
  | done (s : State)
  deriving DecidableEq, Repr

/-- One iteration of R170: `RxAvailable()`, used only for its sign; `RxRead()`, which consumes the head byte; PROCESS_BYTE. -/
def pollIteration (s : State) : Iteration :=
  if rxAvailable s ≤ 0 then .done (setResult (.flag false) s)
  else match s.rx with
    | [] => .done (raiseFault .transport s)
    | b :: rest =>
      match receiveByte b (setRx rest s) with
      | (.completed, t) => .done (setResult (.flag true) t)
      | (.continued, t) => .again t

/-- The loop once no host step interleaves any more: at most one iteration for each byte of the stream and one to find it empty.
The list only bounds the iterations; each reads the state's own stream. -/
def drainQuiet : List Byte → State → State
  | [], s =>
    match pollIteration s with
    | .done t => t
    | .again t => t
  | _ :: shorter, s =>
    match pollIteration s with
    | .done t => t
    | .again t => drainQuiet shorter t

/-- The loop with the host steps that interleave (R173, D17): each `during` entry next in the script takes place before one `RxAvailable()`. -/
def drain (script : List HostStep) (s : State) : State :=
  match script with
  | .during es :: rest =>
    match pollIteration (applyEnvs es (setScript rest s)) with
    | .done t => t
    | .again t => drain rest t
  | .command _ :: _ => drainQuiet s.rx s
  | .call _ :: _ => drainQuiet s.rx s
  | .env _ :: _ => drainQuiet s.rx s
  | [] => drainQuiet s.rx s

/-- POLL (R170): `F_NOT_LIVE`, then `F_POLL_READY` (R171), then the loop. -/
def execPoll (s : State) : Host.Outcome State Fault Refusal :=
  .next (whenLive s fun s => if s.ready then raiseFault .pollReady s else drain s.script s)

end Sys2Proof.Machine
end

