-- ==== Sys2Proof/Machine/Reserved.lean ====
section
/-! DEFINITION. The illegal command words (30_encoding.md R90): each takes the contract fault `F_BAD_CMD`, "with no other effect". -/

namespace Sys2Proof.Machine

/-- The reserved command word 0x00 (R90). -/
def execReserved00 (s : State) : Host.Outcome State Fault Refusal := .next (raiseFault .badCmd s)

/-- The reserved command word 0xF0 (R90). -/
def execReservedF0 (s : State) : Host.Outcome State Fault Refusal := .next (raiseFault .badCmd s)

/-- A command word with a nonzero low nibble (R90). -/
def execIllegalLowNibble (_op _low : Nibble) (s : State) : Host.Outcome State Fault Refusal := .next (raiseFault .badCmd s)

end Sys2Proof.Machine
end

