-- ==== Sys2Proof/Machine/Dispatch.lean ====
section
/-! DEFINITION. exec: one arm per instruction, each one direct call of its meaning. -/

namespace Sys2Proof.Machine

def exec (i : Instr) (s : State) : Host.Outcome State Fault Refusal :=
  match i with
  | .init c => Sys2Proof.Machine.execInit c s
  | .shutdown => Sys2Proof.Machine.execShutdown s
  | .reset => Sys2Proof.Machine.execReset s
  | .poll => Sys2Proof.Machine.execPoll s
  | .send p => Sys2Proof.Machine.execSend p s
  | .enc n => Sys2Proof.Machine.execEnc n s
  | .dec b => Sys2Proof.Machine.execDec b s
  | .crc8 xs => Sys2Proof.Machine.execCrc8 xs s
  | .rdReady => Sys2Proof.Machine.execRdReady s
  | .rdLen => Sys2Proof.Machine.execRdLen s
  | .rdData k => Sys2Proof.Machine.execRdData k s
  | .rdErr => Sys2Proof.Machine.execRdErr s
  | .rdStarted => Sys2Proof.Machine.execRdStarted s
  | .rdTstart => Sys2Proof.Machine.execRdTstart s
  | .reserved00 => Sys2Proof.Machine.execReserved00 s
  | .reservedF0 => Sys2Proof.Machine.execReservedF0 s
  | .illegalLowNibble op low => Sys2Proof.Machine.execIllegalLowNibble op low s
  | .crc8Step acc b => Sys2Proof.Machine.execCrc8Step acc b s
  | .processByte b => Sys2Proof.Machine.execProcessByte b s
  | .wStx => Sys2Proof.Machine.execWStx s
  | .wEtx => Sys2Proof.Machine.execWEtx s
  | .wNoise b => Sys2Proof.Machine.execWNoise b s
  | .wSym0 => Sys2Proof.Machine.execWSym0 s
  | .wSym1 => Sys2Proof.Machine.execWSym1 s
  | .wSym2 => Sys2Proof.Machine.execWSym2 s
  | .wSym3 => Sys2Proof.Machine.execWSym3 s
  | .wSym4 => Sys2Proof.Machine.execWSym4 s
  | .wSym5 => Sys2Proof.Machine.execWSym5 s
  | .wSym6 => Sys2Proof.Machine.execWSym6 s
  | .wSym7 => Sys2Proof.Machine.execWSym7 s
  | .wSym8 => Sys2Proof.Machine.execWSym8 s
  | .wSym9 => Sys2Proof.Machine.execWSym9 s
  | .wSymA => Sys2Proof.Machine.execWSymA s
  | .wSymB => Sys2Proof.Machine.execWSymB s
  | .wSymC => Sys2Proof.Machine.execWSymC s
  | .wSymD => Sys2Proof.Machine.execWSymD s
  | .wSymE => Sys2Proof.Machine.execWSymE s
  | .wSymF => Sys2Proof.Machine.execWSymF s
  | .wBad b => Sys2Proof.Machine.execWBad b s

end Sys2Proof.Machine
end

