-- ==== Sys2Proof/Machine/Fetch.lean ====
section
/-! DEFINITION. Fetching what comes next from the host's script (92_eei_decisions.md D1: "a step is one host operation or one host step"), and placing an opcode-table word where the next step fetches it. -/

namespace Sys2Proof.Machine

/-- What the next step does. -/
inductive Fetched where
  /-- The host has nothing more to do (log 19). -/
  | idle
  /-- A host step took place. -/
  | host (s : State)
  /-- An operation is invoked; the state no longer holds it. -/
  | run (i : Instr) (s : State)
  /-- The host asks for something its interface does not have. -/
  | refuse (r : Refusal)
  deriving DecidableEq, Repr

/-- The script after a command has been taken off a chunk of command bytes: what is left of the chunk comes next (log 23). -/
def putBack (bs : List Byte) (rest : List HostStep) : List HostStep :=
  match bs with
  | [] => rest
  | b :: more => .command (b :: more) :: rest

/-- The operation that a chunk of command bytes starts with (30_encoding.md R87, R88). -/
def fetchCommand (bs : List Byte) (rest : List HostStep) (s : State) : Fetched :=
  match decode s.cfg .command bs with
  | .ok i more => .run i (setScript (putBack more rest) s)
  | .noWord => .host (setScript rest s)
  | .missingOperand _ => .refuse .truncatedCommand
  | .noEncoding => .refuse .internalOperation

/-- The next entry of the script. -/
def fetch (s : State) : Fetched :=
  match s.script with
  | [] => .idle
  | .env e :: rest => .host (applyEnv e (setScript rest s))
  | .during es :: rest => .host (applyEnvs es (setScript rest s))
  | .call i :: rest => if i.space = .command then .run i (setScript rest s) else .refuse .internalOperation
  | .command bs :: rest => fetchCommand bs rest s

/-- The state in which the next step runs a table word: the bytes stand first in the host's script (log 15). A wire-byte word is the one byte
that a POLL, first in the script, reads inside an open frame of a LIVE instance. -/
def placeWord (bs : List Byte) (s : State) : State :=
  match tableSpace s.cfg (bs.headD 0#8) with
  | .command => { s with fault := none, script := .command bs :: s.script }
  | .wire started =>
    { s with fault := none, life := .live, ready := false, started := started, rxAttached := true, rxClaim := none, rx := bs.take 1,
             script := [.command [0x40#8]] }
  | .internal => s

end Sys2Proof.Machine
end

