-- ==== Sys2Proof/Machine/Step.lean ====
section
/-! DEFINITION. One step: one host operation or one host step (92_eei_decisions.md D1). Once a contract fault is recorded no later operation has a rule (60_exceptions.md R207): the machine stops with it. -/

namespace Sys2Proof.Machine

/-- One step of the machine. -/
def step (s : State) : Host.Outcome State Fault Refusal :=
  match s.fault with
  | some r => .fault r
  | none =>
    match fetch s with
    | .idle => .next s
    | .host t => .next t
    | .run i t => exec i t
    | .refuse r => .refused r

/-- `s` with the opcode-table word `w` of `nbits` bits standing where the next step fetches its instruction. -/
def State.withFetchWord (s : State) (nbits w : Nat) : State := placeWord (tableBytes nbits w) s

end Sys2Proof.Machine
end

