-- ==== Sys2Proof/Safety.lean ====
section
/-! DEFINITION. What counts as a safe run, in the terms the statements use: the invariants of 10_state.md R44, runs of the machine, and when two states show the host the same (R47, 44_host_operations.md R185). -/

namespace Sys2Proof.Machine

/-- The invariants of R44, with the widths of R41 and R39 and the canonical form of the buffer. They hold in every `life` value. -/
structure State.Inv (s : State) : Prop where
  /-- The parameters are legal (00_scope.md R6, 30_encoding.md R84). -/
  cfg_wf : s.cfg.wf = true
  /-- R44 item 1: "the write position never exceeds buffer capacity". -/
  pos_le_cap : s.pos ≤ s.cap
  /-- R44 item 2, its flags; what the payload is, POLL's own statement says. -/
  ready_flags : s.ready = true → s.started = true ∧ s.etxSeen = true ∧ s.hiPend = false
  /-- R44 item 3. -/
  nibble_canonical : s.hiPend = false → s.hiNib = 0#4
  /-- R44 item 4, in part: every byte below `pos` has been written; that it was written since the start marker is POLL's own statement. -/
  payload_written : s.life = .live → ∀ i, i < s.pos.toNat → (bufLookup s.buf i).isSome = true
  /-- A nibble is held only inside a frame. -/
  pend_in_frame : s.hiPend = true → s.started = true
  /-- The position is 0 outside a frame. -/
  pos_in_frame : s.started = false → s.pos = 0#8
  /-- The buffer is in its canonical form, below the capacity (20_memory.md R61). -/
  buffer_canonical : Memory.wf s.cap s.buf = true
  /-- The buffer "exists between INIT and SHUTDOWN" (R60). -/
  buffer_exists : s.life ≠ .live → s.buf = []
  /-- `err_cnt` has `ERR_W` bits (R41). -/
  err_width : s.errCnt < 2 ^ s.cfg.errW
  /-- `t_start` has `TS_W` bits (R39). -/
  ts_width : s.tStart < 2 ^ s.cfg.tsW

/-- A run whose last state has a fault has no meaning (60_exceptions.md R207). -/
def State.good (s : State) : Prop := s.fault = none

/-- One state is reached from another by zero or more steps. -/
inductive Reaches : State → State → Prop where
  /-- No step. -/
  | refl (s : State) : Reaches s s
  /-- One more step. -/
  | tail {s t u : State} : Reaches s t → step t = .next u → Reaches s u

/-- Two states that agree in everything but, outside a frame, `etx_seen`, `hi_pend`, `hi_nib`, `pos`, `t_start`, and everywhere the
buffer's bytes at or above `pos` (R47, R63). -/
structure SameToHost (s t : State) : Prop where
  cfg : s.cfg = t.cfg
  life : s.life = t.life
  cap : s.cap = t.cap
  started : s.started = t.started
  ready : s.ready = t.ready
  errCnt : s.errCnt = t.errCnt
  fault : s.fault = t.fault
  rx : s.rx = t.rx
  rxAttached : s.rxAttached = t.rxAttached
  rxClaim : s.rxClaim = t.rxClaim
  tx : s.tx = t.tx
  txAttached : s.txAttached = t.txAttached
  time : s.time = t.time
  script : s.script = t.script
  result : s.result = t.result
  draws : s.draws = t.draws
  /-- A ready packet is inside a frame (R44 item 2). -/
  ready_started : s.ready = true → s.started = true
  /-- Inside a frame the assembly agrees, and so does the payload held. -/
  in_frame : s.started = true → s.etxSeen = t.etxSeen ∧ s.hiPend = t.hiPend ∧ s.hiNib = t.hiNib ∧ s.pos = t.pos ∧ s.tStart = t.tStart
    ∧ ∀ i, i < s.pos.toNat → bufRead s i = bufRead t i

/-- Two outcomes of the same kind: the same stop, or next states that show the host the same. -/
def SameOutcome : Host.Outcome State Fault Refusal → Host.Outcome State Fault Refusal → Prop
  | .next s, .next t => SameToHost s t
  | .fault a, .fault b => a = b
  | .refused a, .refused b => a = b
  | .next _, .fault _ => False
  | .next _, .refused _ => False
  | .fault _, .next _ => False
  | .fault _, .refused _ => False
  | .refused _, .next _ => False
  | .refused _, .fault _ => False

/-- No host step is waiting to interleave with a POLL. -/
def State.quiet (s : State) : Bool :=
  match s.script with
  | [] => true
  | .command _ :: _ => true
  | .call _ :: _ => true
  | .env _ :: _ => true
  | .during _ :: _ => false

/-- An attached source that keeps its duty: `RxAvailable()` is the stream's length (20_memory.md R71). -/
def State.honest (s : State) : Bool := s.rxAttached && s.rxClaim.isNone

/-- A LIVE instance with no packet ready, whose POLL reads an honest source that no host step interleaves with. -/
def State.listens (s : State) : Bool := decide (s.life = .live) && !s.ready && s.honest && s.quiet

/-- The sixteen symbol rows of the opcode table, each with its nibble (30_encoding.md R80). -/
def symbolRows : List (Instr × Nibble) :=
  [(.wSym0, 0x0#4), (.wSym1, 0x1#4), (.wSym2, 0x2#4), (.wSym3, 0x3#4),
   (.wSym4, 0x4#4), (.wSym5, 0x5#4), (.wSym6, 0x6#4), (.wSym7, 0x7#4),
   (.wSym8, 0x8#4), (.wSym9, 0x9#4), (.wSymA, 0xA#4), (.wSymB, 0xB#4),
   (.wSymC, 0xC#4), (.wSymD, 0xD#4), (.wSymE, 0xE#4), (.wSymF, 0xF#4)]

end Sys2Proof.Machine
end

