-- ==== Sys2Proof/Certificates/Slice0/Obligations.lean ====
section
/-! DEFINITION. The statements for the provers. Each docstring names the rules of spec/ it formalises. -/

open Sys2Proof Sys2Proof.Machine

/-! ## Creation and lifecycle -/

/-- 10_state.md section 3: creation, and the table of INIT's values. Nothing is said of the fields that creation leaves absent (log 6). -/
def Obligations.CreationAndInitValues : Prop :=
  State.reset.life = .uninit ∧ State.reset.fault = none ∧
  ∀ (c : Byte) (s : State), s.life = .uninit →
    ∃ t, exec (.init c) s = .next t ∧ t.life = .live ∧ t.cap = c ∧ t.errCnt = s.cfg.errInit
      ∧ t.started = false ∧ t.etxSeen = false ∧ t.hiPend = false ∧ t.ready = false
      ∧ t.hiNib = 0#4 ∧ t.pos = 0#8 ∧ t.tStart = 0 ∧ (s.fault = none → t.fault = none)

/-- 44_host_operations.md R175: INIT, its encoding, its writes, its frame and its fault. The buffer's contents are unspecified, so nothing is said of them. -/
def Obligations.InitEntersIdle : Prop :=
  ∀ (c : Byte) (s : State),
    (s.life = .uninit → ∃ buf, exec (.init c) s =
      .next { s with life := .live, cap := c, buf := buf, errCnt := s.cfg.errInit, started := false, etxSeen := false, hiPend := false,
                     ready := false, hiNib := 0#4, pos := 0#8, tStart := 0, result := .unit }) ∧
    (s.life ≠ .uninit → s.fault = none → exec (.init c) s = .next { s with fault := some .reinit }) ∧
    (∀ rest, decodeCommand (0x10#8 :: c :: rest) = .ok (.init c) rest)

/-- 44_host_operations.md section 3, SHUTDOWN. That no buffer exists is the empty list in this model, and the other fields keep their values
(the model's choice, log 26). -/
def Obligations.ShutdownReleasesBuffer : Prop :=
  ∀ s : State,
    (s.life = .live → exec .shutdown s = .next { s with life := .down, buf := [], result := .unit }) ∧
    (s.life ≠ .live → s.fault = none → exec .shutdown s = .next { s with fault := some .notLive }) ∧
    (∀ rest, decodeCommand (0x20#8 :: rest) = .ok .shutdown rest)

/-- 44_host_operations.md R174: RESET forces Idle, counts no error, is legal in every receive state, and twice is once. -/
def Obligations.ResetForcesIdle : Prop :=
  ∀ s : State,
    (s.life = .live → exec .reset s =
      .next { s with started := false, ready := false, etxSeen := false, hiPend := false, hiNib := 0#4, pos := 0#8, tStart := 0,
                     result := .unit }) ∧
    (s.life ≠ .live → s.fault = none → exec .reset s = .next { s with fault := some .notLive }) ∧
    (∀ t, s.life = .live → exec .reset s = .next t → exec .reset t = .next t) ∧
    (∀ rest, decodeCommand (0x30#8 :: rest) = .ok .reset rest)

/-- 44_host_operations.md R184: which operations are legal in which lifecycle state. -/
def Obligations.LifecycleGating : Prop :=
  ∀ (s : State) (p : List Byte) (k : Byte), s.fault = none →
    (s.life ≠ .live →
      ∀ i ∈ [Instr.shutdown, .reset, .poll, .send p, .rdReady, .rdLen, .rdData k, .rdErr, .rdStarted, .rdTstart],
        exec i s = .next { s with fault := some .notLive }) ∧
    (s.life = .live →
      ∀ i ∈ [Instr.shutdown, .reset, .poll, .send p, .rdReady, .rdLen, .rdData k, .rdErr, .rdStarted, .rdTstart],
        ∃ t, exec i s = .next t ∧ t.fault ≠ some .notLive) ∧
    (s.life = .uninit → ∃ t, exec (.init k) s = .next t ∧ t.fault = none) ∧
    (s.life ≠ .uninit → exec (.init k) s = .next { s with fault := some .reinit }) ∧
    (∀ n : Byte, n.toNat ≤ 15 → ∃ r, exec (.enc n) s = .next { s with result := r }) ∧
    (∃ r, exec (.dec k) s = .next { s with result := r }) ∧
    (p.length ≤ 255 → ∃ r, exec (.crc8 p) s = .next { s with result := r })

/-- 10_state.md section 1: `life` is UNINIT after creation and is written only by INIT (UNINIT to LIVE) and SHUTDOWN (LIVE to DOWN), whatever the step does. -/
def Obligations.LifeChangesOnlyByInitAndShutdown : Prop :=
  State.reset.life = .uninit ∧
  (∀ (i : Instr) (s t : State), exec i s = .next t → t.life ≠ s.life →
    (∃ c, i = .init c ∧ s.life = .uninit ∧ t.life = .live) ∨ (i = .shutdown ∧ s.life = .live ∧ t.life = .down)) ∧
  (∀ s t : State, step s = .next t → t.life ≠ s.life →
    (s.life = .uninit ∧ t.life = .live) ∨ (s.life = .live ∧ t.life = .down))

/-- 10_state.md section 1 and 00_scope.md section 2, over runs: once initialised, the capacity is fixed for the lifetime of the instance, and the
parameters always are. -/
def Obligations.CapacityFixedOverRuns : Prop :=
  ∀ s t : State, Reaches s t → t.cfg = s.cfg ∧ (s.life ≠ .uninit → t.life ≠ .uninit ∧ t.cap = s.cap)

/-! ## Contract faults -/

/-- 30_encoding.md R90: an illegal command word selects no operation and is refused with F_BAD_CMD. -/
def Obligations.IllegalCommandWordsFault : Prop :=
  (∀ s : State, s.fault = none →
    exec .reserved00 s = .next { s with fault := some .badCmd } ∧
    exec .reservedF0 s = .next { s with fault := some .badCmd } ∧
    ∀ op low : Nibble, exec (.illegalLowNibble op low) s = .next { s with fault := some .badCmd }) ∧
  (∀ (w : Byte) (rest : List Byte), w &&& 0x0F#8 ≠ 0#8 ∨ w >>> 4 = 0x0#8 ∨ w >>> 4 = 0xF#8 →
    ∃ i, decodeCommand (w :: rest) = .ok i rest ∧ (i = .reserved00 ∨ i = .reservedF0 ∨ ∃ op low, i = .illegalLowNibble op low))

/-- 60_exceptions.md section 2: a contract fault is sticky and keeps its reason. That "no later operation has a rule" is, in this model, that every
later step stops with it (log 8). -/
def Obligations.FaultIsSticky : Prop :=
  (∀ (s : State) (r : Fault), s.fault = some r → step s = .fault r) ∧
  (∀ (i : Instr) (s t : State) (r : Fault), s.fault = some r → exec i s = .next t → t.fault = some r)

/-! ## Symbol Codec -/

/-- 40_symbol_codec.md R110: ENC, its encoding, the source's formula, and the refusal of an operand byte above 0x0F. -/
def Obligations.EncWritesSymbol : Prop :=
  ∀ (n : Byte) (s : State),
    (n.toNat ≤ 15 → exec (.enc n) s = .next { s with result := .byte ((n <<< 4) ||| (n ^^^ 0x0F#8)) }) ∧
    (15 < n.toNat → s.fault = none → exec (.enc n) s = .next { s with fault := some .badCmd }) ∧
    (∀ rest, decodeCommand (0x60#8 :: n :: rest) = .ok (.enc n) rest)

/-- 40_symbol_codec.md R111: DEC, its encoding, the source's validity test; Invalid is a result. -/
def Obligations.DecValidatesSymbol : Prop :=
  ∀ (b : Byte) (s : State),
    ((b >>> 4) = ((b &&& 0x0F#8) ^^^ 0x0F#8) → ∃ n : Nibble, n.toNat = b.toNat / 16 ∧ exec (.dec b) s = .next { s with result := .nibble n }) ∧
    ((b >>> 4) ≠ ((b &&& 0x0F#8) ^^^ 0x0F#8) → exec (.dec b) s = .next { s with result := .invalid }) ∧
    (∀ rest, decodeCommand (0x70#8 :: b :: rest) = .ok (.dec b) rest)

/-- The round trip of 40_symbol_codec.md (an inference the spec marks as its own), both halves. -/
def Obligations.SymbolRoundTrip : Prop :=
  (∀ n : Nibble, decSymbol (encSymbol n) = some n) ∧ (∀ (b : Byte) (n : Nibble), decSymbol b = some n → b = encSymbol n)

/-- Changing any one bit of a valid symbol gives an invalid byte that is neither 0x02 nor 0x03 (30_encoding.md section 1, an inference
the spec marks as its own). -/
def Obligations.OneBitChangeIsInvalid : Prop :=
  ∀ (n : Nibble) (k : Fin 8),
    symbolValid (encSymbol n ^^^ (1#8 <<< k.val)) = false ∧ encSymbol n ^^^ (1#8 <<< k.val) ≠ 0x02#8 ∧ encSymbol n ^^^ (1#8 <<< k.val) ≠ 0x03#8

/-! ## CRC Engine -/

/-- 41_crc8.md R120: CRC8_STEP, the source's loop. -/
def Obligations.CrcStepFoldsOneByte : Prop :=
  ∀ (acc b : Byte) (s : State),
    exec (.crc8Step acc b) s = .next { s with result := .byte ((List.range 8).foldl (fun (aw : Byte × Byte) (_ : Nat) =>
      (if (aw.1 ^^^ aw.2).getLsbD 0 then (aw.1 >>> 1) ^^^ 0x8C#8 else aw.1 >>> 1, aw.2 >>> 1)) (acc, b)).1 }

/-- 41_crc8.md R121: CRC8, its encoding; it folds CRC8_STEP over the bytes in order from 0; a longer operand is refused. -/
def Obligations.Crc8FoldsBytes : Prop :=
  ∀ (xs : List Byte) (s : State),
    (xs.length ≤ 255 → ∃ v, exec (.crc8 xs) s = .next { s with result := .byte v } ∧
      (xs = [] → v = 0#8) ∧
      (∀ ys b, xs = ys ++ [b] → exec (.crc8Step (crcOf ys) b) s = .next { s with result := .byte v }
        ∧ exec (.crc8 ys) s = .next { s with result := .byte (crcOf ys) })) ∧
    (255 < xs.length → s.fault = none → exec (.crc8 xs) s = .next { s with fault := some .tooLong }) ∧
    (xs.length ≤ 255 → ∀ rest, decodeCommand (0x80#8 :: BitVec.ofNat 8 xs.length :: xs ++ rest) = .ok (.crc8 xs) rest)

/-- A property of the checksum that follows from its loop (41_crc8.md): two payloads of one length that differ in exactly one byte have
different checksums. -/
def Obligations.CrcCatchesOneChangedByte : Prop :=
  ∀ (xs ys : List Byte) (a b : Byte), a ≠ b → crcOf (xs ++ a :: ys) ≠ crcOf (xs ++ b :: ys)

/-! ## Frame Encoder -/

/-- 42_frame_encoder.md R130 and R131: SEND appends exactly the frame to the TX stream and writes no field of the receiver; with no sink
it writes nothing; its two faults; its encoding. -/
def Obligations.SendWritesFrame : Prop :=
  ∀ (p : List Byte) (s : State),
    (s.life = .live → p.length ≤ 255 → s.txAttached = true → exec (.send p) s =
      .next { s with tx := s.tx ++ ([s.cfg.stx] ++ p.flatMap (fun b => [encSymbol (hiNibble b), encSymbol (loNibble b)]) ++ [s.cfg.etx]
                                     ++ [encSymbol (hiNibble (crcOf p)), encSymbol (loNibble (crcOf p))]),
                     result := .unit }) ∧
    (s.life = .live → p.length ≤ 255 → s.txAttached = false → exec (.send p) s = .next { s with result := .unit }) ∧
    (s.life ≠ .live → s.fault = none → exec (.send p) s = .next { s with fault := some .notLive }) ∧
    (s.life = .live → 255 < p.length → s.fault = none → exec (.send p) s = .next { s with fault := some .tooLong }) ∧
    (p.length ≤ 255 → ∀ rest, decodeCommand (0x50#8 :: BitVec.ofNat 8 p.length :: p ++ rest) = .ok (.send p) rest)

/-- 30_encoding.md section 2: a frame has 2N + 4 bytes, and under legal markers each marker stands in it exactly once. -/
def Obligations.FrameShape : Prop :=
  ∀ (c : Config) (p : List Byte), c.wf = true →
    (frameOf c p).length = 2 * p.length + 4 ∧ (frameOf c p).count c.stx = 1 ∧ (frameOf c p).count c.etx = 1

/-! ## Receive state machine: the wire-byte rows -/

/-- 30_encoding.md R85: the class of a received byte, first match wins. -/
def Obligations.WireByteClasses : Prop :=
  ∀ (c : Config) (started : Bool) (b : Byte),
    (b = c.stx → classify c started b = .wStx) ∧
    (b ≠ c.stx → b = c.etx → classify c started b = .wEtx) ∧
    (b ≠ c.stx → b ≠ c.etx → started = false → classify c started b = .wNoise b) ∧
    (b ≠ c.stx → b ≠ c.etx → started = true → symbolValid b = true →
      ∃ r ∈ symbolRows, classify c started b = r.1 ∧ r.2 = hiNibble b) ∧
    (b ≠ c.stx → b ≠ c.etx → started = true → symbolValid b = false → classify c started b = .wBad b)

/-- 43_receive_fsm.md section 1 with 30_encoding.md section 3: PROCESS_BYTE does to a byte what the row of its class does, and goes on to a next state. -/
def Obligations.ProcessByteRunsItsClass : Prop :=
  ∀ (b : Byte) (s : State), s.cfg.wf = true →
    ∃ t, exec (.processByte b) s = .next t ∧ exec (classify s.cfg s.started b) s = .next t

/-- A start marker re-enters InFrame and records the time (43_receive_fsm.md section 2). The value of `Now()`, the host's where it has supplied one and
free otherwise, is the model's choice (log 5); that the row does the same in Complete and outside LIVE, where no byte is processed, is too
(log 25). -/
def Obligations.StartMarkerOpensFrame : Prop :=
  ∀ s : State, ∃ now draws,
    exec .wStx s = .next { s with started := true, etxSeen := false, pos := 0#8, hiPend := false, hiNib := 0#4, tStart := now,
                                  draws := draws, result := .status .continued } ∧
    now < 2 ^ s.cfg.tsW ∧ ∀ u, s.time = some u → now = u % 2 ^ s.cfg.tsW

/-- 43_receive_fsm.md R142: an end marker writes `etx_seen` only. -/
def Obligations.EndMarkerSetsEtxSeen : Prop :=
  ∀ s : State, exec .wEtx s = .next { s with etxSeen := true, result := .status .continued }

/-- 43_receive_fsm.md R143: a non-marker byte outside a frame changes nothing. -/
def Obligations.NoiseIsDiscarded : Prop :=
  ∀ (b : Byte) (s : State), s.started = false →
    exec (.wNoise b) s = .next { s with result := .status .continued } ∧
    (b ≠ s.cfg.stx → b ≠ s.cfg.etx → exec (.processByte b) s = .next { s with result := .status .continued })

/-- The wire-byte rows where their row condition does not hold (the model's choice, log 18). Outside a frame W_BAD and the symbol rows change nothing,
and that is what PROCESS_BYTE does to the byte of a well-formed W_BAD, and to the symbol under legal parameters; inside a frame W_NOISE does what
PROCESS_BYTE does to its byte. -/
def Obligations.WireRowsOutsideTheirClass : Prop :=
  ∀ (b : Byte) (s : State),
    (s.started = false →
      exec (.wBad b) s = .next { s with result := .status .continued } ∧
      ((Instr.wBad b).wellFormed s.cfg = true → exec (.processByte b) s = exec (.wBad b) s) ∧
      ∀ r ∈ symbolRows, exec r.1 s = .next { s with result := .status .continued } ∧
        (s.cfg.wf = true → exec (.processByte (encSymbol r.2)) s = exec r.1 s)) ∧
    (s.started = true → exec (.wNoise b) s = exec (.processByte b) s)

/-- 43_receive_fsm.md R144: an invalid symbol inside a frame runs the error action. -/
def Obligations.InvalidSymbolResets : Prop :=
  ∀ (b : Byte) (s : State), s.started = true →
    exec (.wBad b) s = .next { s with started := false, ready := false, etxSeen := false, hiPend := false, hiNib := 0#4, pos := 0#8,
                                      tStart := 0, errCnt := (s.errCnt + 1) % 2 ^ s.cfg.errW, result := .status .continued } ∧
    (b ≠ s.cfg.stx → b ≠ s.cfg.etx → symbolValid b = false → exec (.processByte b) s = exec (.wBad b) s)

/-- 43_receive_fsm.md R145: the first symbol of a pair is held as the high nibble. -/
def Obligations.FirstSymbolIsHeld : Prop :=
  ∀ r ∈ symbolRows, ∀ s : State, s.started = true → s.hiPend = false →
    exec r.1 s = .next { s with hiNib := r.2, hiPend := true, result := .status .continued }

/-- 43_receive_fsm.md R149 with R146: the second symbol of a payload pair appends the byte at `pos`; every other byte of the buffer is unchanged. -/
def Obligations.SecondSymbolAppends : Prop :=
  ∀ r ∈ symbolRows, ∀ s : State, s.started = true → s.hiPend = true → s.etxSeen = false → s.pos < s.cap →
    ∃ buf, exec r.1 s = .next { s with buf := buf, pos := s.pos + 1#8, hiPend := false, hiNib := 0#4, result := .status .continued } ∧
      bufLookup buf s.pos.toNat = some ((s.hiNib.setWidth 8 <<< 4) ||| r.2.setWidth 8) ∧
      ∀ i, i ≠ s.pos.toNat → bufLookup buf i = bufLookup s.buf i

/-- 43_receive_fsm.md R150: a completed payload byte with the buffer full runs the error action and writes nothing to the buffer. -/
def Obligations.SecondSymbolOverflows : Prop :=
  ∀ r ∈ symbolRows, ∀ s : State, s.started = true → s.hiPend = true → s.etxSeen = false → s.pos = s.cap →
    exec r.1 s = .next { s with started := false, ready := false, etxSeen := false, hiPend := false, hiNib := 0#4, pos := 0#8,
                                tStart := 0, errCnt := (s.errCnt + 1) % 2 ^ s.cfg.errW, result := .status .continued }

/-- 43_receive_fsm.md R147: a checksum match makes the packet ready. -/
def Obligations.ChecksumMatchCompletes : Prop :=
  ∀ r ∈ symbolRows, ∀ s : State, s.started = true → s.hiPend = true → s.etxSeen = true →
    (s.hiNib.setWidth 8 <<< 4) ||| r.2.setWidth 8 = crcOf ((List.range s.pos.toNat).map (bufRead s)) →
    exec r.1 s = .next { s with hiPend := false, hiNib := 0#4, ready := true, result := .status .completed }

/-- 43_receive_fsm.md R148: a checksum mismatch runs the error action. -/
def Obligations.ChecksumMismatchResets : Prop :=
  ∀ r ∈ symbolRows, ∀ s : State, s.started = true → s.hiPend = true → s.etxSeen = true →
    (s.hiNib.setWidth 8 <<< 4) ||| r.2.setWidth 8 ≠ crcOf ((List.range s.pos.toNat).map (bufRead s)) →
    exec r.1 s = .next { s with started := false, ready := false, etxSeen := false, hiPend := false, hiNib := 0#4, pos := 0#8,
                                tStart := 0, errCnt := (s.errCnt + 1) % 2 ^ s.cfg.errW, result := .status .continued }

/-- The transition table of 43_receive_fsm.md section 4 (an inference the spec marks as its own): the state after one byte. -/
def Obligations.ReceiveTransitions : Prop :=
  ∀ s : State, s.ready = false →
    (∃ t, exec .wStx s = .next t ∧ rxPhase t = .inFrame ∧ t.errCnt = s.errCnt) ∧
    (∃ t, exec .wEtx s = .next t ∧ t.errCnt = s.errCnt ∧ rxPhase t = if s.started then .awaitingChecksum else .idle) ∧
    (∀ b, s.started = false → ∃ t, exec (.wNoise b) s = .next t ∧ rxPhase t = .idle ∧ t.errCnt = s.errCnt) ∧
    (∀ b, s.started = true → ∃ t, exec (.wBad b) s = .next t ∧ rxPhase t = .idle ∧ t.errCnt = errBump s.cfg s.errCnt) ∧
    (∀ r ∈ symbolRows, s.started = true → ∃ t, exec r.1 s = .next t ∧
      (s.hiPend = false → rxPhase t = rxPhase s ∧ t.errCnt = s.errCnt) ∧
      (s.hiPend = true → s.etxSeen = false →
        (rxPhase t = .inFrame ∧ t.errCnt = s.errCnt) ∨ (rxPhase t = .idle ∧ t.errCnt = errBump s.cfg s.errCnt)) ∧
      (s.hiPend = true → s.etxSeen = true →
        (rxPhase t = .complete ∧ t.errCnt = s.errCnt) ∨ (rxPhase t = .idle ∧ t.errCnt = errBump s.cfg s.errCnt)))

/-- 60_exceptions.md section 1, 43_receive_fsm.md section 4: whatever the byte, the counter keeps its value or grows by exactly 1 (modulo `2^ERR_W`), and then
the machine is Idle by the reset action, with the buffer and the capacity as they were. -/
def Obligations.ViolationsCountOne : Prop :=
  ∀ (b : Byte) (s : State), ∃ t, exec (.processByte b) s = .next t ∧
    (t.errCnt = s.errCnt ∨
      (t = { s with started := false, ready := false, etxSeen := false, hiPend := false, hiNib := 0#4, pos := 0#8, tStart := 0,
                    errCnt := (s.errCnt + 1) % 2 ^ s.cfg.errW, result := .status .continued }))

/-! ## POLL -/

/-- 44_host_operations.md R171: a POLL while a packet is ready raises F_POLL_READY and reads no byte. -/
def Obligations.PollWhileReadyFaults : Prop :=
  ∀ s : State, s.life = .live → s.ready = true → s.fault = none → exec .poll s = .next { s with fault := some .pollReady }

/-- A POLL whose first `RxAvailable()` is 0 or less returns false and changes nothing (44_host_operations.md section 1); so does one with no
source attached (20_memory.md section 4). -/
def Obligations.PollWithNothingIsNoOp : Prop :=
  ∀ s : State, s.life = .live → s.ready = false → s.quiet = true →
    (rxAvailable s ≤ 0 → exec .poll s = .next { s with result := .flag false }) ∧
    (s.rxAttached = false → exec .poll s = .next { s with result := .flag false })

/-- With an honest source a POLL raises no fault, and it returns true exactly when it leaves a packet ready; when it returns false it has
read the whole stream (44_host_operations.md section 1). -/
def Obligations.PollReturnsTrueExactlyOnCompletion : Prop :=
  ∀ s : State, s.listens = true → ∃ t, exec .poll s = .next t ∧ t.fault = s.fault ∧
    ((t.result = .flag true ∧ t.ready = true) ∨ (t.result = .flag false ∧ t.ready = false ∧ t.rx = []))

/-- The frame of a POLL that no host step interleaves with: it reads a prefix of the RX stream, writes no buffer byte at or above the
capacity, and leaves everything outside the receiver alone (44_host_operations.md section 1, 20_memory.md section 1). -/
def Obligations.PollFrame : Prop :=
  ∀ s : State, s.life = .live → s.ready = false → s.quiet = true → ∃ t, exec .poll s = .next t ∧
    (∃ read, s.rx = read ++ t.rx) ∧
    (∀ i, s.cap.toNat ≤ i → bufLookup t.buf i = bufLookup s.buf i) ∧
    t.cfg = s.cfg ∧ t.life = s.life ∧ t.cap = s.cap ∧ t.rxAttached = s.rxAttached ∧ t.rxClaim = s.rxClaim ∧ t.tx = s.tx
      ∧ t.txAttached = s.txAttached ∧ t.time = s.time ∧ t.script = s.script

/-- 60_exceptions.md section 2, `F_TRANSPORT`: a POLL of a source that always claims bytes ends as the POLL of an honest source over the same stream
does where that one completes a packet; where that one reads the whole stream and returns false, this one faults, with every effect of
the bytes read. That such a claim stands until the transport changes it is the model's (log 13), as is that a faulting operation leaves
the last result (log 9). -/
def Obligations.PollOnLyingTransportFaults : Prop :=
  ∀ (s : State) (k : Int), s.life = .live → s.ready = false → s.quiet = true → s.fault = none →
    s.rxAttached = true → s.rxClaim = some k → 0 < k → ∃ u, exec .poll { s with rxClaim := none } = .next u ∧ u.fault = none ∧
      ((u.result = .flag true ∧ u.ready = true ∧ exec .poll s = .next { u with rxClaim := some k }) ∨
       (u.result = .flag false ∧ u.rx = [] ∧
         exec .poll s = .next { u with rxClaim := some k, result := s.result, fault := some .transport }))

/-- POLL runs the row of the head byte's class, and then goes on exactly as a POLL from there, or returns true at once
(44_host_operations.md section 1). -/
def Obligations.PollRunsRowsByteByByte : Prop :=
  ∀ (s t : State) (b : Byte) (bs : List Byte), s.listens = true → s.cfg.wf = true → s.rx = b :: bs →
    exec (classify s.cfg s.started b) { s with rx := bs } = .next t →
    (t.result = .status .continued → exec .poll s = exec .poll t) ∧
    (t.result = .status .completed → exec .poll s = .next { t with result := .flag true })

/-- A frame split across POLLs is assembled exactly as if its bytes had come in one call (44_host_operations.md section 1, an inference
the spec marks as its own): a POLL over `xs` that returns false, then one over `ys`, end as one POLL over `xs ++ ys`. -/
def Obligations.PollResumesWhereItStopped : Prop :=
  ∀ (s t : State) (xs ys : List Byte), s.listens = true → s.rx = xs ++ ys →
    exec .poll { s with rx := xs } = .next t → t.result = .flag false →
    exec .poll s = exec .poll { t with rx := ys }

/-- Bytes that arrive inside a POLL before its first `RxAvailable()` are bytes that had arrived before it (20_memory.md section 4; the
`during` entries are the model's form, log 11). -/
def Obligations.ArrivalDuringPoll : Prop :=
  ∀ (s : State) (bs : List Byte) (rest : List HostStep), s.life = .live → s.ready = false →
    s.script = .during [.arrive bs] :: rest → ({ s with script := rest } : State).quiet = true →
    exec .poll s = exec .poll { s with rx := s.rx ++ bs, script := rest }

/-- Host steps that interleave with a POLL (44_host_operations.md section 1, 92_eei_decisions.md D17; the `during` entries are the model's form, log 11):
the entry that stands next takes place before the next `RxAvailable()`, and gives the state `u` that it gives as a step of its own. From `u`
the POLL returns false, faults, or reads one byte; after a byte that completes no packet it goes on as a POLL from the state after that byte, so
that the next entry takes place before the next read. -/
def Obligations.PollInterleavesHostSteps : Prop :=
  ∀ (s u : State) (es : List EnvStep) (rest : List HostStep), s.life = .live → s.ready = false → s.fault = none →
    s.script = .during es :: rest → step s = .next u →
    (rxAvailable u ≤ 0 → exec .poll s = .next { u with result := .flag false }) ∧
    (0 < rxAvailable u → u.rx = [] → exec .poll s = .next { u with fault := some .transport }) ∧
    (∀ b bs t, 0 < rxAvailable u → u.rx = b :: bs → exec (.processByte b) { u with rx := bs } = .next t →
      (t.result = .status .continued → exec .poll s = exec .poll { t with result := u.result }) ∧
      (t.result = .status .completed → exec .poll s = .next { t with result := .flag true }))

/-- What a POLL holds is what it read since the last start marker (10_state.md section 2, an inference the spec marks as its own): from outside a
frame, a packet it delivers is the payload of the bytes between a start marker and the last byte read, among which stand no start
marker and at least one end marker, and whose other bytes are exactly the symbols of the payload and of its checksum; a frame it leaves open
holds, since the last start marker of the stream, exactly the symbols of the bytes below `pos` and the held symbol. -/
def Obligations.PollHoldsBytesSinceStartMarker : Prop :=
  ∀ s : State, s.listens = true → s.started = false → ∃ t, exec .poll s = .next t ∧
    (t.result = .flag true → ∃ before frame,
      s.rx = before ++ [s.cfg.stx] ++ frame ++ t.rx ∧ s.cfg.stx ∉ frame ∧ s.cfg.etx ∈ frame ∧
      frame.filter (fun b => b != s.cfg.etx) = (payload t ++ [crcOf (payload t)]).flatMap symbolsOf) ∧
    (t.result = .flag false → t.started = true → ∃ before frame,
      s.rx = before ++ [s.cfg.stx] ++ frame ∧ s.cfg.stx ∉ frame ∧ (t.etxSeen = true ↔ s.cfg.etx ∈ frame) ∧
      frame.filter (fun b => b != s.cfg.etx) = (payload t).flatMap symbolsOf ++ (if t.hiPend then [encSymbol t.hiNib] else []))

/-! ## The whole link -/

/-- The frame round trip (95_test_vectors.md L1.3, L1.7, L1.8): whatever was being assembled before, a POLL over the frame of a payload that fits
returns true with that payload ready, its length and a start time, no error counted, and the bytes after the frame unread. That the start time
is the host's where it has supplied one, and free otherwise, is the model's choice (log 5). -/
def Obligations.FrameRoundTrip : Prop :=
  ∀ (s : State) (p more : List Byte), s.listens = true → s.cfg.wf = true → p.length ≤ s.cap.toNat → s.rx = frameOf s.cfg p ++ more →
    ∃ t, exec .poll s = .next t ∧ t.result = .flag true ∧ rxPhase t = .complete ∧ t.rx = more ∧ t.errCnt = s.errCnt ∧
      exec .rdLen t = .next { t with result := .byte (BitVec.ofNat 8 p.length) } ∧
      (∀ (i : Nat) (h : i < p.length), exec (.rdData (BitVec.ofNat 8 i)) t = .next { t with result := .byte p[i] }) ∧
      ∃ now, exec .rdTstart t = .next { t with result := .stamp now } ∧ now < 2 ^ s.cfg.tsW ∧
        ∀ u, s.time = some u → now = u % 2 ^ s.cfg.tsW

/-- A frame longer than the capacity is dropped with one error, the machine is Idle again, and no byte at or above the capacity is written
(42_frame_encoder.md R134, 95_test_vectors.md L1.4). -/
def Obligations.OverflowingFrameCountsOneError : Prop :=
  ∀ (s : State) (p : List Byte), s.listens = true → s.cfg.wf = true → s.cap.toNat < p.length → s.rx = frameOf s.cfg p →
    ∃ t, exec .poll s = .next t ∧ t.result = .flag false ∧ rxPhase t = .idle ∧ t.rx = [] ∧ t.errCnt = errBump s.cfg s.errCnt ∧
      ∀ i, s.cap.toNat ≤ i → bufLookup t.buf i = bufLookup s.buf i

/-- Corruption recovery (95_test_vectors.md L1.5): with the markers 0x02 and 0x03, changing any one bit of any one symbol of a frame that
fits makes the POLL over it return false, count exactly one error and leave the machine Idle. The marker values are the spec's from
general knowledge (log 2). -/
def Obligations.OneCorruptBitCountsOneError : Prop :=
  ∀ (s : State) (p : List Byte) (j : Nat) (k : Fin 8), s.listens = true → s.cfg.stx = 0x02#8 → s.cfg.etx = 0x03#8 →
    p.length ≤ s.cap.toNat → 0 < j → j < (frameOf s.cfg p).length → j ≠ 2 * p.length + 1 →
    s.rx = (frameOf s.cfg p).set j ((frameOf s.cfg p).getD j 0#8 ^^^ (1#8 <<< k.val)) →
    ∃ t, exec .poll s = .next t ∧ t.result = .flag false ∧ rxPhase t = .idle ∧ t.rx = [] ∧ t.errCnt = errBump s.cfg s.errCnt

/-! ## The observation surface -/

/-- 44_host_operations.md R177, R180, R181: the flags and the counter are read in every receive state, and reading writes nothing; their encodings. -/
def Obligations.StatusReads : Prop :=
  ∀ s : State,
    (s.life = .live →
      exec .rdReady s = .next { s with result := .flag s.ready } ∧
      exec .rdErr s = .next { s with result := .count s.errCnt } ∧
      exec .rdStarted s = .next { s with result := .flag s.started }) ∧
    (s.life ≠ .live → s.fault = none →
      exec .rdReady s = .next { s with fault := some .notLive } ∧
      exec .rdErr s = .next { s with fault := some .notLive } ∧
      exec .rdStarted s = .next { s with fault := some .notLive }) ∧
    (∀ rest, decodeCommand (0x90#8 :: rest) = .ok .rdReady rest ∧ decodeCommand (0xC0#8 :: rest) = .ok .rdErr rest ∧
      decodeCommand (0xD0#8 :: rest) = .ok .rdStarted rest)

/-- 44_host_operations.md R178, R179: the payload and its length are exposed in Complete only, and no further than the length; their encodings. -/
def Obligations.PayloadReads : Prop :=
  ∀ (s : State) (i : Byte),
    (s.life = .live →
      exec .rdLen s = .next { s with result := if s.ready then .byte s.pos else .absent } ∧
      (s.ready = true → i < s.pos → exec (.rdData i) s = .next { s with result := .byte (bufRead s i.toNat) }) ∧
      (s.ready = false ∨ s.pos ≤ i → exec (.rdData i) s = .next { s with result := .absent })) ∧
    (s.life ≠ .live → s.fault = none →
      exec .rdLen s = .next { s with fault := some .notLive } ∧ exec (.rdData i) s = .next { s with fault := some .notLive }) ∧
    (∀ rest, decodeCommand (0xA0#8 :: rest) = .ok .rdLen rest ∧ decodeCommand (0xB0#8 :: i :: rest) = .ok (.rdData i) rest)

/-- 44_host_operations.md R182: the start timestamp is exposed while a packet has started; its encoding. -/
def Obligations.StartTimeRead : Prop :=
  ∀ s : State,
    (s.life = .live → s.started = true → exec .rdTstart s = .next { s with result := .stamp s.tStart }) ∧
    (s.life = .live → s.started = false → exec .rdTstart s = .next { s with result := .absent }) ∧
    (s.life ≠ .live → s.fault = none → exec .rdTstart s = .next { s with fault := some .notLive }) ∧
    (∀ rest, decodeCommand (0xE0#8 :: rest) = .ok .rdTstart rest)

/-- 10_state.md section 1: of the host's operations, only POLL sets "packet ready", and only RESET and INIT clear it. -/
def Obligations.ReadyProtocol : Prop :=
  ∀ (i : Instr) (s t : State), i.space = .command → exec i s = .next t →
    (s.ready = false → t.ready = true → i = .poll) ∧
    (s.ready = true → t.ready = false → i = .reset ∨ ∃ c, i = .init c)

/-- 10_state.md section 1: of the host's operations, only POLL and INIT write the error counter. -/
def Obligations.ErrorCounterWriters : Prop :=
  ∀ (i : Instr) (s t : State), i.space = .command → exec i s = .next t → t.errCnt ≠ s.errCnt → i = .poll ∨ ∃ c, i = .init c

/-! ## Encodings -/

/-- Decode and encode agree (30_encoding.md sections 3 and 4): in its own space, the encoding of a well-formed instruction decodes to it, with any
bytes after it left over. -/
def Obligations.DecodeEncode : Prop :=
  ∀ (c : Config) (i : Instr) (bs rest : List Byte), c.wf = true → i.wellFormed c = true → encode c i = some bs →
    decode c i.space (bs ++ rest) = .ok i rest

/-- The other direction for commands (30_encoding.md section 4): the bytes a command is decoded from are its encoding. -/
def Obligations.EncodeDecodeCommand : Prop :=
  ∀ (c : Config) (bs rest : List Byte) (i : Instr), decodeCommand bs = .ok i rest →
    i.space = .command ∧ ∃ e, encode c i = some e ∧ bs = e ++ rest

/-- Words written out from the tables of 30_encoding.md sections 1, 3 and 4 decode to what they stand for; the marker is the spec's from general
knowledge (log 2). -/
def Obligations.TableWordsDecode : Prop :=
  decodeCommand [0x10#8, 0x04#8] = .ok (.init 0x04#8) [] ∧
  decodeCommand [0x50#8, 0x02#8, 0x41#8, 0x42#8] = .ok (.send [0x41#8, 0x42#8]) [] ∧
  decodeCommand [0x40#8] = .ok .poll [] ∧
  decodeCommand [0xB0#8, 0x01#8] = .ok (.rdData 0x01#8) [] ∧
  classify defaultConfig true 0x4B#8 = .wSym4 ∧
  classify defaultConfig true 0x02#8 = .wStx ∧
  classify defaultConfig false 0x4B#8 = .wNoise 0x4B#8 ∧
  classify defaultConfig true 0x1F#8 = .wBad 0x1F#8

/-! ## The step -/

/-- A step runs the decoded instruction: when the host's next bytes decode to an instruction, or the host calls an operation, the step is exec of
it at the state whose script no longer holds it. It refuses a call of an internal operation or of a wire-byte row (log 17) and a command whose
bytes end before its operands (log 16); an empty chunk of bytes is only taken off (log 23); with an empty script nothing changes
(log 19). The script is the model's form of the host (log 1). -/
def Obligations.StepRunsDecodedInstruction : Prop :=
  (∀ (s : State) (bs : List Byte) (rest : List HostStep) (i : Instr) (more : List Byte),
    s.fault = none → s.script = .command bs :: rest → decode s.cfg .command bs = .ok i more →
    step s = exec i { s with script := if more = [] then rest else .command more :: rest }) ∧
  (∀ (s : State) (rest : List HostStep) (i : Instr),
    s.fault = none → s.script = .call i :: rest → i.space = .command → step s = exec i { s with script := rest }) ∧
  (∀ (s : State) (rest : List HostStep) (i : Instr),
    s.fault = none → s.script = .call i :: rest → i.space ≠ .command → step s = .refused .internalOperation) ∧
  (∀ (s : State) (bs : List Byte) (rest : List HostStep) (op : Nibble),
    s.fault = none → s.script = .command bs :: rest → decode s.cfg .command bs = .missingOperand op →
    step s = .refused .truncatedCommand) ∧
  (∀ (s : State) (rest : List HostStep), s.fault = none → s.script = .command [] :: rest → step s = .next { s with script := rest }) ∧
  (∀ s : State, s.fault = none → s.script = [] → step s = .next s)

/-- The host steps (30_encoding.md section 5, 20_memory.md section 4), in the model's form of the host (logs 1, 10, 13): ARRIVE, TIME and LOOP,
attaching and detaching the sink and the source, and what the transport claims; each changes the interfaces alone. A `during` entry
that no POLL takes does its steps one after the other (log 11). -/
def Obligations.HostStepsActOnInterfaces : Prop :=
  ∀ (s : State) (rest : List HostStep), s.fault = none →
    (∀ bs, s.script = .env (.arrive bs) :: rest → step s = .next { s with script := rest, rx := s.rx ++ bs }) ∧
    (∀ t, s.script = .env (.time t) :: rest → step s = .next { s with script := rest, time := some t }) ∧
    (s.script = .env .loop :: rest → step s = .next { s with script := rest, rx := s.rx ++ s.tx, tx := [] }) ∧
    (s.script = .env .attachSink :: rest → step s = .next { s with script := rest, txAttached := true }) ∧
    (s.script = .env .detachSink :: rest → step s = .next { s with script := rest, txAttached := false }) ∧
    (s.script = .env .attachSource :: rest → step s = .next { s with script := rest, rxAttached := true }) ∧
    (s.script = .env .detachSource :: rest → step s = .next { s with script := rest, rxAttached := false }) ∧
    (∀ k, s.script = .env (.claim k) :: rest → step s = .next { s with script := rest, rxClaim := k }) ∧
    (s.script = .during [] :: rest → step s = .next { s with script := rest }) ∧
    (∀ e es, s.script = .during (e :: es) :: rest →
      ∃ u, step { s with script := .env e :: .during es :: rest } = .next u ∧ step s = step u)

/-! ## Invariants -/

/-- The invariants of 10_state.md section 2 (an inference the spec marks as its own; the halves of items 2 and 4 that InvariantsKeptByEveryStep names are
left out), with the model's widths and buffer form, hold at creation (at the values the log gives the absent fields, log 6). -/
def Obligations.InvariantsAtCreation : Prop := State.reset.Inv

/-- The invariants of 10_state.md section 2 (an inference the spec marks as its own), and the widths and the buffer's canonical form (logs 7, 24, 26), are
kept by every step. Two halves of them are left out: of item 2 only the flags are stated, not that the bytes below `pos` are the payload whose
checksum matched, and of item 4 only that every byte below `pos` has been written, not that it was written since the start marker. Those are
PollHoldsBytesSinceStartMarker's. -/
def Obligations.InvariantsKeptByEveryStep : Prop :=
  ∀ s t : State, s.Inv → step s = .next t → t.Inv

/-- Idle states are equivalent (10_state.md section 2, an inference the spec marks as its own): two LIVE states outside a frame that differ only
in `etx_seen`, `hi_pend`, `hi_nib`, `pos`, `t_start` and the buffer give the host the same results over every run. -/
def Obligations.IdleStatesAreEquivalent : Prop :=
  ∀ (s : State) (e h : Bool) (n : Nibble) (p : Byte) (u : Nat) (m : List Host.Cell) (k : Nat),
    s.life = .live → s.started = false → s.ready = false →
    SameOutcome (Host.Core.run Sys2Proof.core k s)
      (Host.Core.run Sys2Proof.core k { s with etxSeen := e, hiPend := h, hiNib := n, pos := p, tStart := u, buf := m })

/-- One step keeps what the host can see the same (10_state.md section 2, an inference the spec marks as its own): from two states that differ only outside a
frame in `etx_seen`, `hi_pend`, `hi_nib`, `pos`, `t_start`, and in the buffer's bytes at or above `pos`, a step gives two such states, or
the same stop. -/
def Obligations.StepKeepsSameToHost : Prop :=
  ∀ s t : State, SameToHost s t → SameOutcome (step s) (step t)
end

