-- ==== Sys2Proof/Laws/Buffer.lean ====
section
/-! SUPPORT. The receive buffer: a read after a write, and every operation keeps the canonical form. -/

namespace Sys2Proof.Machine

/-- A read after a write to the same index gives the byte written. -/
@[simp] theorem bufLookup_bufInsert_same (m : List Host.Cell) (i : Nat) (v : Byte) :
    bufLookup (bufInsert m i v) i = some v := by
  induction m with
  | nil => simp [bufInsert, bufLookup]
  | cons cell rest ih =>
    obtain ⟨a, w⟩ := cell
    unfold bufInsert
    split
    · simp [bufLookup]
    · split
      · simp [bufLookup]
      · rename_i h
        simp only [bufLookup, ih]
        rw [if_neg (fun e => h e.symm)]

/-- A write leaves every other index alone. -/
theorem bufLookup_bufInsert_other (m : List Host.Cell) (i j : Nat) (v : Byte) (h : j ≠ i) :
    bufLookup (bufInsert m i v) j = bufLookup m j := by
  induction m with
  | nil => simp [bufInsert, bufLookup, h.symm]
  | cons cell rest ih =>
    obtain ⟨a, w⟩ := cell
    unfold bufInsert
    split
    · simp [bufLookup, h.symm]
    · split
      · rename_i e
        subst e
        simp [bufLookup, h.symm]
      · simp [bufLookup, ih]

/-- A write above `lo` keeps the addresses strictly rising. -/
theorem memoryRises_bufInsert (m : List Host.Cell) (lo i : Nat) (v : Byte) (h : memoryRises lo m = true) (hi : lo ≤ i) :
    memoryRises lo (bufInsert m i v) = true := by
  induction m generalizing lo with
  | nil => simp [bufInsert, memoryRises, hi]
  | cons cell rest ih =>
    obtain ⟨a, w⟩ := cell
    simp only [memoryRises, Bool.and_eq_true, decide_eq_true_eq] at h
    unfold bufInsert
    split
    · rename_i lt
      simp only [memoryRises, Bool.and_eq_true, decide_eq_true_eq]
      exact ⟨hi, lt, h.2⟩
    · split
      · rename_i e
        subst e
        simp only [memoryRises, Bool.and_eq_true, decide_eq_true_eq]
        exact h
      · simp only [memoryRises, Bool.and_eq_true, decide_eq_true_eq]
        exact ⟨h.1, ih (a + 1) h.2 (by omega)⟩

/-- Every cell after a write is an old cell or the written one. -/
theorem mem_bufInsert (m : List Host.Cell) (i : Nat) (v : Byte) (cell : Host.Cell) (h : cell ∈ bufInsert m i v) :
    cell ∈ m ∨ cell = (i, v) := by
  induction m with
  | nil => simpa [bufInsert] using h
  | cons head rest ih =>
    obtain ⟨a, w⟩ := head
    unfold bufInsert at h
    split at h
    · simp only [List.mem_cons] at h ⊢
      tauto
    · split at h
      · simp only [List.mem_cons] at h ⊢
        tauto
      · simp only [List.mem_cons] at h ⊢
        rcases h with h | h
        · exact .inl (.inl h)
        · exact (ih h).elim (fun x => .inl (.inr x)) .inr

/-- A write below the capacity keeps the canonical form (20_memory.md R61). -/
theorem bufInsert_wf (cap : Byte) (m : List Host.Cell) (i : Nat) (v : Byte) (h : Memory.wf cap m = true) (hi : i < cap.toNat) :
    Memory.wf cap (bufInsert m i v) = true := by
  simp only [Memory.wf, Bool.and_eq_true, List.all_eq_true, decide_eq_true_eq] at h ⊢
  refine ⟨memoryRises_bufInsert m 0 i v h.1 (Nat.zero_le i), fun cell hc => ?_⟩
  rcases mem_bufInsert m i v cell hc with hm | rfl
  · exact h.2 cell hm
  · exact hi

/-- An empty buffer is in canonical form. -/
@[simp] theorem nil_wf (cap : Byte) : Memory.wf cap [] = true := rfl

/-- The buffer right after creation is in canonical form. -/
theorem reset_memory_wf : Memory.wf State.reset.cap State.reset.buf = true := rfl

end Sys2Proof.Machine
end

