-- ==== Sys2Proof/Laws/State.lean ====
section
/-! SUPPORT. What each record update of the model does to each field of State, one lemma per field per update, true by rfl, so that no proof unfolds an update. -/

namespace Sys2Proof.Machine

/-! ## resetAction -/

@[simp] theorem resetAction_cfg (s : State) : (resetAction s).cfg = s.cfg := rfl
@[simp] theorem resetAction_life (s : State) : (resetAction s).life = s.life := rfl
@[simp] theorem resetAction_cap (s : State) : (resetAction s).cap = s.cap := rfl
@[simp] theorem resetAction_buf (s : State) : (resetAction s).buf = s.buf := rfl
@[simp] theorem resetAction_pos (s : State) : (resetAction s).pos = 0#8 := rfl
@[simp] theorem resetAction_started (s : State) : (resetAction s).started = false := rfl
@[simp] theorem resetAction_etxSeen (s : State) : (resetAction s).etxSeen = false := rfl
@[simp] theorem resetAction_hiPend (s : State) : (resetAction s).hiPend = false := rfl
@[simp] theorem resetAction_hiNib (s : State) : (resetAction s).hiNib = 0#4 := rfl
@[simp] theorem resetAction_tStart (s : State) : (resetAction s).tStart = 0 := rfl
@[simp] theorem resetAction_ready (s : State) : (resetAction s).ready = false := rfl
@[simp] theorem resetAction_errCnt (s : State) : (resetAction s).errCnt = s.errCnt := rfl
@[simp] theorem resetAction_fault (s : State) : (resetAction s).fault = s.fault := rfl
@[simp] theorem resetAction_rx (s : State) : (resetAction s).rx = s.rx := rfl
@[simp] theorem resetAction_rxAttached (s : State) : (resetAction s).rxAttached = s.rxAttached := rfl
@[simp] theorem resetAction_rxClaim (s : State) : (resetAction s).rxClaim = s.rxClaim := rfl
@[simp] theorem resetAction_tx (s : State) : (resetAction s).tx = s.tx := rfl
@[simp] theorem resetAction_txAttached (s : State) : (resetAction s).txAttached = s.txAttached := rfl
@[simp] theorem resetAction_time (s : State) : (resetAction s).time = s.time := rfl
@[simp] theorem resetAction_script (s : State) : (resetAction s).script = s.script := rfl
@[simp] theorem resetAction_result (s : State) : (resetAction s).result = s.result := rfl
@[simp] theorem resetAction_draws (s : State) : (resetAction s).draws = s.draws := rfl

/-! ## errorAction -/

@[simp] theorem errorAction_cfg (s : State) : (errorAction s).cfg = s.cfg := rfl
@[simp] theorem errorAction_life (s : State) : (errorAction s).life = s.life := rfl
@[simp] theorem errorAction_cap (s : State) : (errorAction s).cap = s.cap := rfl
@[simp] theorem errorAction_buf (s : State) : (errorAction s).buf = s.buf := rfl
@[simp] theorem errorAction_pos (s : State) : (errorAction s).pos = 0#8 := rfl
@[simp] theorem errorAction_started (s : State) : (errorAction s).started = false := rfl
@[simp] theorem errorAction_etxSeen (s : State) : (errorAction s).etxSeen = false := rfl
@[simp] theorem errorAction_hiPend (s : State) : (errorAction s).hiPend = false := rfl
@[simp] theorem errorAction_hiNib (s : State) : (errorAction s).hiNib = 0#4 := rfl
@[simp] theorem errorAction_tStart (s : State) : (errorAction s).tStart = 0 := rfl
@[simp] theorem errorAction_ready (s : State) : (errorAction s).ready = false := rfl
@[simp] theorem errorAction_errCnt (s : State) : (errorAction s).errCnt = errBump s.cfg s.errCnt := rfl
@[simp] theorem errorAction_fault (s : State) : (errorAction s).fault = s.fault := rfl
@[simp] theorem errorAction_rx (s : State) : (errorAction s).rx = s.rx := rfl
@[simp] theorem errorAction_rxAttached (s : State) : (errorAction s).rxAttached = s.rxAttached := rfl
@[simp] theorem errorAction_rxClaim (s : State) : (errorAction s).rxClaim = s.rxClaim := rfl
@[simp] theorem errorAction_tx (s : State) : (errorAction s).tx = s.tx := rfl
@[simp] theorem errorAction_txAttached (s : State) : (errorAction s).txAttached = s.txAttached := rfl
@[simp] theorem errorAction_time (s : State) : (errorAction s).time = s.time := rfl
@[simp] theorem errorAction_script (s : State) : (errorAction s).script = s.script := rfl
@[simp] theorem errorAction_result (s : State) : (errorAction s).result = s.result := rfl
@[simp] theorem errorAction_draws (s : State) : (errorAction s).draws = s.draws := rfl

/-! ## setResult -/

@[simp] theorem setResult_cfg (r : OpResult) (s : State) : (setResult r s).cfg = s.cfg := rfl
@[simp] theorem setResult_life (r : OpResult) (s : State) : (setResult r s).life = s.life := rfl
@[simp] theorem setResult_cap (r : OpResult) (s : State) : (setResult r s).cap = s.cap := rfl
@[simp] theorem setResult_buf (r : OpResult) (s : State) : (setResult r s).buf = s.buf := rfl
@[simp] theorem setResult_pos (r : OpResult) (s : State) : (setResult r s).pos = s.pos := rfl
@[simp] theorem setResult_started (r : OpResult) (s : State) : (setResult r s).started = s.started := rfl
@[simp] theorem setResult_etxSeen (r : OpResult) (s : State) : (setResult r s).etxSeen = s.etxSeen := rfl
@[simp] theorem setResult_hiPend (r : OpResult) (s : State) : (setResult r s).hiPend = s.hiPend := rfl
@[simp] theorem setResult_hiNib (r : OpResult) (s : State) : (setResult r s).hiNib = s.hiNib := rfl
@[simp] theorem setResult_tStart (r : OpResult) (s : State) : (setResult r s).tStart = s.tStart := rfl
@[simp] theorem setResult_ready (r : OpResult) (s : State) : (setResult r s).ready = s.ready := rfl
@[simp] theorem setResult_errCnt (r : OpResult) (s : State) : (setResult r s).errCnt = s.errCnt := rfl
@[simp] theorem setResult_fault (r : OpResult) (s : State) : (setResult r s).fault = s.fault := rfl
@[simp] theorem setResult_rx (r : OpResult) (s : State) : (setResult r s).rx = s.rx := rfl
@[simp] theorem setResult_rxAttached (r : OpResult) (s : State) : (setResult r s).rxAttached = s.rxAttached := rfl
@[simp] theorem setResult_rxClaim (r : OpResult) (s : State) : (setResult r s).rxClaim = s.rxClaim := rfl
@[simp] theorem setResult_tx (r : OpResult) (s : State) : (setResult r s).tx = s.tx := rfl
@[simp] theorem setResult_txAttached (r : OpResult) (s : State) : (setResult r s).txAttached = s.txAttached := rfl
@[simp] theorem setResult_time (r : OpResult) (s : State) : (setResult r s).time = s.time := rfl
@[simp] theorem setResult_script (r : OpResult) (s : State) : (setResult r s).script = s.script := rfl
@[simp] theorem setResult_result (r : OpResult) (s : State) : (setResult r s).result = r := rfl
@[simp] theorem setResult_draws (r : OpResult) (s : State) : (setResult r s).draws = s.draws := rfl

/-! ## raiseFault -/

@[simp] theorem raiseFault_cfg (r : Fault) (s : State) : (raiseFault r s).cfg = s.cfg := rfl
@[simp] theorem raiseFault_life (r : Fault) (s : State) : (raiseFault r s).life = s.life := rfl
@[simp] theorem raiseFault_cap (r : Fault) (s : State) : (raiseFault r s).cap = s.cap := rfl
@[simp] theorem raiseFault_buf (r : Fault) (s : State) : (raiseFault r s).buf = s.buf := rfl
@[simp] theorem raiseFault_pos (r : Fault) (s : State) : (raiseFault r s).pos = s.pos := rfl
@[simp] theorem raiseFault_started (r : Fault) (s : State) : (raiseFault r s).started = s.started := rfl
@[simp] theorem raiseFault_etxSeen (r : Fault) (s : State) : (raiseFault r s).etxSeen = s.etxSeen := rfl
@[simp] theorem raiseFault_hiPend (r : Fault) (s : State) : (raiseFault r s).hiPend = s.hiPend := rfl
@[simp] theorem raiseFault_hiNib (r : Fault) (s : State) : (raiseFault r s).hiNib = s.hiNib := rfl
@[simp] theorem raiseFault_tStart (r : Fault) (s : State) : (raiseFault r s).tStart = s.tStart := rfl
@[simp] theorem raiseFault_ready (r : Fault) (s : State) : (raiseFault r s).ready = s.ready := rfl
@[simp] theorem raiseFault_errCnt (r : Fault) (s : State) : (raiseFault r s).errCnt = s.errCnt := rfl
@[simp] theorem raiseFault_rx (r : Fault) (s : State) : (raiseFault r s).rx = s.rx := rfl
@[simp] theorem raiseFault_rxAttached (r : Fault) (s : State) : (raiseFault r s).rxAttached = s.rxAttached := rfl
@[simp] theorem raiseFault_rxClaim (r : Fault) (s : State) : (raiseFault r s).rxClaim = s.rxClaim := rfl
@[simp] theorem raiseFault_tx (r : Fault) (s : State) : (raiseFault r s).tx = s.tx := rfl
@[simp] theorem raiseFault_txAttached (r : Fault) (s : State) : (raiseFault r s).txAttached = s.txAttached := rfl
@[simp] theorem raiseFault_time (r : Fault) (s : State) : (raiseFault r s).time = s.time := rfl
@[simp] theorem raiseFault_script (r : Fault) (s : State) : (raiseFault r s).script = s.script := rfl
@[simp] theorem raiseFault_result (r : Fault) (s : State) : (raiseFault r s).result = s.result := rfl
@[simp] theorem raiseFault_draws (r : Fault) (s : State) : (raiseFault r s).draws = s.draws := rfl

/-! ## bufWrite -/

@[simp] theorem bufWrite_cfg (i : Nat) (v : Byte) (s : State) : (bufWrite s i v).cfg = s.cfg := rfl
@[simp] theorem bufWrite_life (i : Nat) (v : Byte) (s : State) : (bufWrite s i v).life = s.life := rfl
@[simp] theorem bufWrite_cap (i : Nat) (v : Byte) (s : State) : (bufWrite s i v).cap = s.cap := rfl
@[simp] theorem bufWrite_buf (i : Nat) (v : Byte) (s : State) : (bufWrite s i v).buf = bufInsert s.buf i v := rfl
@[simp] theorem bufWrite_pos (i : Nat) (v : Byte) (s : State) : (bufWrite s i v).pos = s.pos := rfl
@[simp] theorem bufWrite_started (i : Nat) (v : Byte) (s : State) : (bufWrite s i v).started = s.started := rfl
@[simp] theorem bufWrite_etxSeen (i : Nat) (v : Byte) (s : State) : (bufWrite s i v).etxSeen = s.etxSeen := rfl
@[simp] theorem bufWrite_hiPend (i : Nat) (v : Byte) (s : State) : (bufWrite s i v).hiPend = s.hiPend := rfl
@[simp] theorem bufWrite_hiNib (i : Nat) (v : Byte) (s : State) : (bufWrite s i v).hiNib = s.hiNib := rfl
@[simp] theorem bufWrite_tStart (i : Nat) (v : Byte) (s : State) : (bufWrite s i v).tStart = s.tStart := rfl
@[simp] theorem bufWrite_ready (i : Nat) (v : Byte) (s : State) : (bufWrite s i v).ready = s.ready := rfl
@[simp] theorem bufWrite_errCnt (i : Nat) (v : Byte) (s : State) : (bufWrite s i v).errCnt = s.errCnt := rfl
@[simp] theorem bufWrite_fault (i : Nat) (v : Byte) (s : State) : (bufWrite s i v).fault = s.fault := rfl
@[simp] theorem bufWrite_rx (i : Nat) (v : Byte) (s : State) : (bufWrite s i v).rx = s.rx := rfl
@[simp] theorem bufWrite_rxAttached (i : Nat) (v : Byte) (s : State) : (bufWrite s i v).rxAttached = s.rxAttached := rfl
@[simp] theorem bufWrite_rxClaim (i : Nat) (v : Byte) (s : State) : (bufWrite s i v).rxClaim = s.rxClaim := rfl
@[simp] theorem bufWrite_tx (i : Nat) (v : Byte) (s : State) : (bufWrite s i v).tx = s.tx := rfl
@[simp] theorem bufWrite_txAttached (i : Nat) (v : Byte) (s : State) : (bufWrite s i v).txAttached = s.txAttached := rfl
@[simp] theorem bufWrite_time (i : Nat) (v : Byte) (s : State) : (bufWrite s i v).time = s.time := rfl
@[simp] theorem bufWrite_script (i : Nat) (v : Byte) (s : State) : (bufWrite s i v).script = s.script := rfl
@[simp] theorem bufWrite_result (i : Nat) (v : Byte) (s : State) : (bufWrite s i v).result = s.result := rfl
@[simp] theorem bufWrite_draws (i : Nat) (v : Byte) (s : State) : (bufWrite s i v).draws = s.draws := rfl

/-! ## txWrite -/

@[simp] theorem txWrite_cfg (b : Byte) (s : State) : (txWrite s b).cfg = s.cfg := rfl
@[simp] theorem txWrite_life (b : Byte) (s : State) : (txWrite s b).life = s.life := rfl
@[simp] theorem txWrite_cap (b : Byte) (s : State) : (txWrite s b).cap = s.cap := rfl
@[simp] theorem txWrite_buf (b : Byte) (s : State) : (txWrite s b).buf = s.buf := rfl
@[simp] theorem txWrite_pos (b : Byte) (s : State) : (txWrite s b).pos = s.pos := rfl
@[simp] theorem txWrite_started (b : Byte) (s : State) : (txWrite s b).started = s.started := rfl
@[simp] theorem txWrite_etxSeen (b : Byte) (s : State) : (txWrite s b).etxSeen = s.etxSeen := rfl
@[simp] theorem txWrite_hiPend (b : Byte) (s : State) : (txWrite s b).hiPend = s.hiPend := rfl
@[simp] theorem txWrite_hiNib (b : Byte) (s : State) : (txWrite s b).hiNib = s.hiNib := rfl
@[simp] theorem txWrite_tStart (b : Byte) (s : State) : (txWrite s b).tStart = s.tStart := rfl
@[simp] theorem txWrite_ready (b : Byte) (s : State) : (txWrite s b).ready = s.ready := rfl
@[simp] theorem txWrite_errCnt (b : Byte) (s : State) : (txWrite s b).errCnt = s.errCnt := rfl
@[simp] theorem txWrite_fault (b : Byte) (s : State) : (txWrite s b).fault = s.fault := rfl
@[simp] theorem txWrite_rx (b : Byte) (s : State) : (txWrite s b).rx = s.rx := rfl
@[simp] theorem txWrite_rxAttached (b : Byte) (s : State) : (txWrite s b).rxAttached = s.rxAttached := rfl
@[simp] theorem txWrite_rxClaim (b : Byte) (s : State) : (txWrite s b).rxClaim = s.rxClaim := rfl
@[simp] theorem txWrite_tx (b : Byte) (s : State) : (txWrite s b).tx = s.tx ++ [b] := rfl
@[simp] theorem txWrite_txAttached (b : Byte) (s : State) : (txWrite s b).txAttached = s.txAttached := rfl
@[simp] theorem txWrite_time (b : Byte) (s : State) : (txWrite s b).time = s.time := rfl
@[simp] theorem txWrite_script (b : Byte) (s : State) : (txWrite s b).script = s.script := rfl
@[simp] theorem txWrite_result (b : Byte) (s : State) : (txWrite s b).result = s.result := rfl
@[simp] theorem txWrite_draws (b : Byte) (s : State) : (txWrite s b).draws = s.draws := rfl

/-! ## txByte -/

@[simp] theorem txByte_cfg (b : Byte) (s : State) : (txByte s b).cfg = s.cfg := rfl
@[simp] theorem txByte_life (b : Byte) (s : State) : (txByte s b).life = s.life := rfl
@[simp] theorem txByte_cap (b : Byte) (s : State) : (txByte s b).cap = s.cap := rfl
@[simp] theorem txByte_buf (b : Byte) (s : State) : (txByte s b).buf = s.buf := rfl
@[simp] theorem txByte_pos (b : Byte) (s : State) : (txByte s b).pos = s.pos := rfl
@[simp] theorem txByte_started (b : Byte) (s : State) : (txByte s b).started = s.started := rfl
@[simp] theorem txByte_etxSeen (b : Byte) (s : State) : (txByte s b).etxSeen = s.etxSeen := rfl
@[simp] theorem txByte_hiPend (b : Byte) (s : State) : (txByte s b).hiPend = s.hiPend := rfl
@[simp] theorem txByte_hiNib (b : Byte) (s : State) : (txByte s b).hiNib = s.hiNib := rfl
@[simp] theorem txByte_tStart (b : Byte) (s : State) : (txByte s b).tStart = s.tStart := rfl
@[simp] theorem txByte_ready (b : Byte) (s : State) : (txByte s b).ready = s.ready := rfl
@[simp] theorem txByte_errCnt (b : Byte) (s : State) : (txByte s b).errCnt = s.errCnt := rfl
@[simp] theorem txByte_fault (b : Byte) (s : State) : (txByte s b).fault = s.fault := rfl
@[simp] theorem txByte_rx (b : Byte) (s : State) : (txByte s b).rx = s.rx := rfl
@[simp] theorem txByte_rxAttached (b : Byte) (s : State) : (txByte s b).rxAttached = s.rxAttached := rfl
@[simp] theorem txByte_rxClaim (b : Byte) (s : State) : (txByte s b).rxClaim = s.rxClaim := rfl
@[simp] theorem txByte_txAttached (b : Byte) (s : State) : (txByte s b).txAttached = s.txAttached := rfl
@[simp] theorem txByte_time (b : Byte) (s : State) : (txByte s b).time = s.time := rfl
@[simp] theorem txByte_script (b : Byte) (s : State) : (txByte s b).script = s.script := rfl
@[simp] theorem txByte_result (b : Byte) (s : State) : (txByte s b).result = s.result := rfl
@[simp] theorem txByte_draws (b : Byte) (s : State) : (txByte s b).draws = s.draws := rfl

/-! ## openFrame -/

@[simp] theorem openFrame_cfg (s : State) : (openFrame s).cfg = s.cfg := rfl
@[simp] theorem openFrame_life (s : State) : (openFrame s).life = s.life := rfl
@[simp] theorem openFrame_cap (s : State) : (openFrame s).cap = s.cap := rfl
@[simp] theorem openFrame_buf (s : State) : (openFrame s).buf = s.buf := rfl
@[simp] theorem openFrame_pos (s : State) : (openFrame s).pos = 0#8 := rfl
@[simp] theorem openFrame_started (s : State) : (openFrame s).started = true := rfl
@[simp] theorem openFrame_etxSeen (s : State) : (openFrame s).etxSeen = false := rfl
@[simp] theorem openFrame_hiPend (s : State) : (openFrame s).hiPend = false := rfl
@[simp] theorem openFrame_hiNib (s : State) : (openFrame s).hiNib = 0#4 := rfl
@[simp] theorem openFrame_tStart (s : State) : (openFrame s).tStart = nowValue s := rfl
@[simp] theorem openFrame_ready (s : State) : (openFrame s).ready = s.ready := rfl
@[simp] theorem openFrame_errCnt (s : State) : (openFrame s).errCnt = s.errCnt := rfl
@[simp] theorem openFrame_fault (s : State) : (openFrame s).fault = s.fault := rfl
@[simp] theorem openFrame_rx (s : State) : (openFrame s).rx = s.rx := rfl
@[simp] theorem openFrame_rxAttached (s : State) : (openFrame s).rxAttached = s.rxAttached := rfl
@[simp] theorem openFrame_rxClaim (s : State) : (openFrame s).rxClaim = s.rxClaim := rfl
@[simp] theorem openFrame_tx (s : State) : (openFrame s).tx = s.tx := rfl
@[simp] theorem openFrame_txAttached (s : State) : (openFrame s).txAttached = s.txAttached := rfl
@[simp] theorem openFrame_time (s : State) : (openFrame s).time = s.time := rfl
@[simp] theorem openFrame_script (s : State) : (openFrame s).script = s.script := rfl
@[simp] theorem openFrame_result (s : State) : (openFrame s).result = s.result := rfl
@[simp] theorem openFrame_draws (s : State) : (openFrame s).draws = nowDraws s := rfl

/-! ## markEnd -/

@[simp] theorem markEnd_cfg (s : State) : (markEnd s).cfg = s.cfg := rfl
@[simp] theorem markEnd_life (s : State) : (markEnd s).life = s.life := rfl
@[simp] theorem markEnd_cap (s : State) : (markEnd s).cap = s.cap := rfl
@[simp] theorem markEnd_buf (s : State) : (markEnd s).buf = s.buf := rfl
@[simp] theorem markEnd_pos (s : State) : (markEnd s).pos = s.pos := rfl
@[simp] theorem markEnd_started (s : State) : (markEnd s).started = s.started := rfl
@[simp] theorem markEnd_etxSeen (s : State) : (markEnd s).etxSeen = true := rfl
@[simp] theorem markEnd_hiPend (s : State) : (markEnd s).hiPend = s.hiPend := rfl
@[simp] theorem markEnd_hiNib (s : State) : (markEnd s).hiNib = s.hiNib := rfl
@[simp] theorem markEnd_tStart (s : State) : (markEnd s).tStart = s.tStart := rfl
@[simp] theorem markEnd_ready (s : State) : (markEnd s).ready = s.ready := rfl
@[simp] theorem markEnd_errCnt (s : State) : (markEnd s).errCnt = s.errCnt := rfl
@[simp] theorem markEnd_fault (s : State) : (markEnd s).fault = s.fault := rfl
@[simp] theorem markEnd_rx (s : State) : (markEnd s).rx = s.rx := rfl
@[simp] theorem markEnd_rxAttached (s : State) : (markEnd s).rxAttached = s.rxAttached := rfl
@[simp] theorem markEnd_rxClaim (s : State) : (markEnd s).rxClaim = s.rxClaim := rfl
@[simp] theorem markEnd_tx (s : State) : (markEnd s).tx = s.tx := rfl
@[simp] theorem markEnd_txAttached (s : State) : (markEnd s).txAttached = s.txAttached := rfl
@[simp] theorem markEnd_time (s : State) : (markEnd s).time = s.time := rfl
@[simp] theorem markEnd_script (s : State) : (markEnd s).script = s.script := rfl
@[simp] theorem markEnd_result (s : State) : (markEnd s).result = s.result := rfl
@[simp] theorem markEnd_draws (s : State) : (markEnd s).draws = s.draws := rfl

/-! ## holdNibble -/

@[simp] theorem holdNibble_cfg (n : Nibble) (s : State) : (holdNibble n s).cfg = s.cfg := rfl
@[simp] theorem holdNibble_life (n : Nibble) (s : State) : (holdNibble n s).life = s.life := rfl
@[simp] theorem holdNibble_cap (n : Nibble) (s : State) : (holdNibble n s).cap = s.cap := rfl
@[simp] theorem holdNibble_buf (n : Nibble) (s : State) : (holdNibble n s).buf = s.buf := rfl
@[simp] theorem holdNibble_pos (n : Nibble) (s : State) : (holdNibble n s).pos = s.pos := rfl
@[simp] theorem holdNibble_started (n : Nibble) (s : State) : (holdNibble n s).started = s.started := rfl
@[simp] theorem holdNibble_etxSeen (n : Nibble) (s : State) : (holdNibble n s).etxSeen = s.etxSeen := rfl
@[simp] theorem holdNibble_hiPend (n : Nibble) (s : State) : (holdNibble n s).hiPend = true := rfl
@[simp] theorem holdNibble_hiNib (n : Nibble) (s : State) : (holdNibble n s).hiNib = n := rfl
@[simp] theorem holdNibble_tStart (n : Nibble) (s : State) : (holdNibble n s).tStart = s.tStart := rfl
@[simp] theorem holdNibble_ready (n : Nibble) (s : State) : (holdNibble n s).ready = s.ready := rfl
@[simp] theorem holdNibble_errCnt (n : Nibble) (s : State) : (holdNibble n s).errCnt = s.errCnt := rfl
@[simp] theorem holdNibble_fault (n : Nibble) (s : State) : (holdNibble n s).fault = s.fault := rfl
@[simp] theorem holdNibble_rx (n : Nibble) (s : State) : (holdNibble n s).rx = s.rx := rfl
@[simp] theorem holdNibble_rxAttached (n : Nibble) (s : State) : (holdNibble n s).rxAttached = s.rxAttached := rfl
@[simp] theorem holdNibble_rxClaim (n : Nibble) (s : State) : (holdNibble n s).rxClaim = s.rxClaim := rfl
@[simp] theorem holdNibble_tx (n : Nibble) (s : State) : (holdNibble n s).tx = s.tx := rfl
@[simp] theorem holdNibble_txAttached (n : Nibble) (s : State) : (holdNibble n s).txAttached = s.txAttached := rfl
@[simp] theorem holdNibble_time (n : Nibble) (s : State) : (holdNibble n s).time = s.time := rfl
@[simp] theorem holdNibble_script (n : Nibble) (s : State) : (holdNibble n s).script = s.script := rfl
@[simp] theorem holdNibble_result (n : Nibble) (s : State) : (holdNibble n s).result = s.result := rfl
@[simp] theorem holdNibble_draws (n : Nibble) (s : State) : (holdNibble n s).draws = s.draws := rfl

/-! ## clearPair -/

@[simp] theorem clearPair_cfg (s : State) : (clearPair s).cfg = s.cfg := rfl
@[simp] theorem clearPair_life (s : State) : (clearPair s).life = s.life := rfl
@[simp] theorem clearPair_cap (s : State) : (clearPair s).cap = s.cap := rfl
@[simp] theorem clearPair_buf (s : State) : (clearPair s).buf = s.buf := rfl
@[simp] theorem clearPair_pos (s : State) : (clearPair s).pos = s.pos := rfl
@[simp] theorem clearPair_started (s : State) : (clearPair s).started = s.started := rfl
@[simp] theorem clearPair_etxSeen (s : State) : (clearPair s).etxSeen = s.etxSeen := rfl
@[simp] theorem clearPair_hiPend (s : State) : (clearPair s).hiPend = false := rfl
@[simp] theorem clearPair_hiNib (s : State) : (clearPair s).hiNib = 0#4 := rfl
@[simp] theorem clearPair_tStart (s : State) : (clearPair s).tStart = s.tStart := rfl
@[simp] theorem clearPair_ready (s : State) : (clearPair s).ready = s.ready := rfl
@[simp] theorem clearPair_errCnt (s : State) : (clearPair s).errCnt = s.errCnt := rfl
@[simp] theorem clearPair_fault (s : State) : (clearPair s).fault = s.fault := rfl
@[simp] theorem clearPair_rx (s : State) : (clearPair s).rx = s.rx := rfl
@[simp] theorem clearPair_rxAttached (s : State) : (clearPair s).rxAttached = s.rxAttached := rfl
@[simp] theorem clearPair_rxClaim (s : State) : (clearPair s).rxClaim = s.rxClaim := rfl
@[simp] theorem clearPair_tx (s : State) : (clearPair s).tx = s.tx := rfl
@[simp] theorem clearPair_txAttached (s : State) : (clearPair s).txAttached = s.txAttached := rfl
@[simp] theorem clearPair_time (s : State) : (clearPair s).time = s.time := rfl
@[simp] theorem clearPair_script (s : State) : (clearPair s).script = s.script := rfl
@[simp] theorem clearPair_result (s : State) : (clearPair s).result = s.result := rfl
@[simp] theorem clearPair_draws (s : State) : (clearPair s).draws = s.draws := rfl

/-! ## markReady -/

@[simp] theorem markReady_cfg (s : State) : (markReady s).cfg = s.cfg := rfl
@[simp] theorem markReady_life (s : State) : (markReady s).life = s.life := rfl
@[simp] theorem markReady_cap (s : State) : (markReady s).cap = s.cap := rfl
@[simp] theorem markReady_buf (s : State) : (markReady s).buf = s.buf := rfl
@[simp] theorem markReady_pos (s : State) : (markReady s).pos = s.pos := rfl
@[simp] theorem markReady_started (s : State) : (markReady s).started = s.started := rfl
@[simp] theorem markReady_etxSeen (s : State) : (markReady s).etxSeen = s.etxSeen := rfl
@[simp] theorem markReady_hiPend (s : State) : (markReady s).hiPend = s.hiPend := rfl
@[simp] theorem markReady_hiNib (s : State) : (markReady s).hiNib = s.hiNib := rfl
@[simp] theorem markReady_tStart (s : State) : (markReady s).tStart = s.tStart := rfl
@[simp] theorem markReady_ready (s : State) : (markReady s).ready = true := rfl
@[simp] theorem markReady_errCnt (s : State) : (markReady s).errCnt = s.errCnt := rfl
@[simp] theorem markReady_fault (s : State) : (markReady s).fault = s.fault := rfl
@[simp] theorem markReady_rx (s : State) : (markReady s).rx = s.rx := rfl
@[simp] theorem markReady_rxAttached (s : State) : (markReady s).rxAttached = s.rxAttached := rfl
@[simp] theorem markReady_rxClaim (s : State) : (markReady s).rxClaim = s.rxClaim := rfl
@[simp] theorem markReady_tx (s : State) : (markReady s).tx = s.tx := rfl
@[simp] theorem markReady_txAttached (s : State) : (markReady s).txAttached = s.txAttached := rfl
@[simp] theorem markReady_time (s : State) : (markReady s).time = s.time := rfl
@[simp] theorem markReady_script (s : State) : (markReady s).script = s.script := rfl
@[simp] theorem markReady_result (s : State) : (markReady s).result = s.result := rfl
@[simp] theorem markReady_draws (s : State) : (markReady s).draws = s.draws := rfl

/-! ## appendByte -/

@[simp] theorem appendByte_cfg (v : Byte) (s : State) : (appendByte v s).cfg = s.cfg := rfl
@[simp] theorem appendByte_life (v : Byte) (s : State) : (appendByte v s).life = s.life := rfl
@[simp] theorem appendByte_cap (v : Byte) (s : State) : (appendByte v s).cap = s.cap := rfl
@[simp] theorem appendByte_buf (v : Byte) (s : State) : (appendByte v s).buf = bufInsert s.buf s.pos.toNat v := rfl
@[simp] theorem appendByte_pos (v : Byte) (s : State) : (appendByte v s).pos = s.pos + 1#8 := rfl
@[simp] theorem appendByte_started (v : Byte) (s : State) : (appendByte v s).started = s.started := rfl
@[simp] theorem appendByte_etxSeen (v : Byte) (s : State) : (appendByte v s).etxSeen = s.etxSeen := rfl
@[simp] theorem appendByte_hiPend (v : Byte) (s : State) : (appendByte v s).hiPend = s.hiPend := rfl
@[simp] theorem appendByte_hiNib (v : Byte) (s : State) : (appendByte v s).hiNib = s.hiNib := rfl
@[simp] theorem appendByte_tStart (v : Byte) (s : State) : (appendByte v s).tStart = s.tStart := rfl
@[simp] theorem appendByte_ready (v : Byte) (s : State) : (appendByte v s).ready = s.ready := rfl
@[simp] theorem appendByte_errCnt (v : Byte) (s : State) : (appendByte v s).errCnt = s.errCnt := rfl
@[simp] theorem appendByte_fault (v : Byte) (s : State) : (appendByte v s).fault = s.fault := rfl
@[simp] theorem appendByte_rx (v : Byte) (s : State) : (appendByte v s).rx = s.rx := rfl
@[simp] theorem appendByte_rxAttached (v : Byte) (s : State) : (appendByte v s).rxAttached = s.rxAttached := rfl
@[simp] theorem appendByte_rxClaim (v : Byte) (s : State) : (appendByte v s).rxClaim = s.rxClaim := rfl
@[simp] theorem appendByte_tx (v : Byte) (s : State) : (appendByte v s).tx = s.tx := rfl
@[simp] theorem appendByte_txAttached (v : Byte) (s : State) : (appendByte v s).txAttached = s.txAttached := rfl
@[simp] theorem appendByte_time (v : Byte) (s : State) : (appendByte v s).time = s.time := rfl
@[simp] theorem appendByte_script (v : Byte) (s : State) : (appendByte v s).script = s.script := rfl
@[simp] theorem appendByte_result (v : Byte) (s : State) : (appendByte v s).result = s.result := rfl
@[simp] theorem appendByte_draws (v : Byte) (s : State) : (appendByte v s).draws = s.draws := rfl

/-! ## initialise -/

@[simp] theorem initialise_cfg (c : Byte) (s : State) : (initialise c s).cfg = s.cfg := rfl
@[simp] theorem initialise_life (c : Byte) (s : State) : (initialise c s).life = .live := rfl
@[simp] theorem initialise_cap (c : Byte) (s : State) : (initialise c s).cap = c := rfl
@[simp] theorem initialise_buf (c : Byte) (s : State) : (initialise c s).buf = [] := rfl
@[simp] theorem initialise_pos (c : Byte) (s : State) : (initialise c s).pos = 0#8 := rfl
@[simp] theorem initialise_started (c : Byte) (s : State) : (initialise c s).started = false := rfl
@[simp] theorem initialise_etxSeen (c : Byte) (s : State) : (initialise c s).etxSeen = false := rfl
@[simp] theorem initialise_hiPend (c : Byte) (s : State) : (initialise c s).hiPend = false := rfl
@[simp] theorem initialise_hiNib (c : Byte) (s : State) : (initialise c s).hiNib = 0#4 := rfl
@[simp] theorem initialise_tStart (c : Byte) (s : State) : (initialise c s).tStart = 0 := rfl
@[simp] theorem initialise_ready (c : Byte) (s : State) : (initialise c s).ready = false := rfl
@[simp] theorem initialise_errCnt (c : Byte) (s : State) : (initialise c s).errCnt = s.cfg.errInit := rfl
@[simp] theorem initialise_fault (c : Byte) (s : State) : (initialise c s).fault = s.fault := rfl
@[simp] theorem initialise_rx (c : Byte) (s : State) : (initialise c s).rx = s.rx := rfl
@[simp] theorem initialise_rxAttached (c : Byte) (s : State) : (initialise c s).rxAttached = s.rxAttached := rfl
@[simp] theorem initialise_rxClaim (c : Byte) (s : State) : (initialise c s).rxClaim = s.rxClaim := rfl
@[simp] theorem initialise_tx (c : Byte) (s : State) : (initialise c s).tx = s.tx := rfl
@[simp] theorem initialise_txAttached (c : Byte) (s : State) : (initialise c s).txAttached = s.txAttached := rfl
@[simp] theorem initialise_time (c : Byte) (s : State) : (initialise c s).time = s.time := rfl
@[simp] theorem initialise_script (c : Byte) (s : State) : (initialise c s).script = s.script := rfl
@[simp] theorem initialise_result (c : Byte) (s : State) : (initialise c s).result = s.result := rfl
@[simp] theorem initialise_draws (c : Byte) (s : State) : (initialise c s).draws = s.draws := rfl

/-! ## setRx -/

@[simp] theorem setRx_cfg (r : List Byte) (s : State) : (setRx r s).cfg = s.cfg := rfl
@[simp] theorem setRx_life (r : List Byte) (s : State) : (setRx r s).life = s.life := rfl
@[simp] theorem setRx_cap (r : List Byte) (s : State) : (setRx r s).cap = s.cap := rfl
@[simp] theorem setRx_buf (r : List Byte) (s : State) : (setRx r s).buf = s.buf := rfl
@[simp] theorem setRx_pos (r : List Byte) (s : State) : (setRx r s).pos = s.pos := rfl
@[simp] theorem setRx_started (r : List Byte) (s : State) : (setRx r s).started = s.started := rfl
@[simp] theorem setRx_etxSeen (r : List Byte) (s : State) : (setRx r s).etxSeen = s.etxSeen := rfl
@[simp] theorem setRx_hiPend (r : List Byte) (s : State) : (setRx r s).hiPend = s.hiPend := rfl
@[simp] theorem setRx_hiNib (r : List Byte) (s : State) : (setRx r s).hiNib = s.hiNib := rfl
@[simp] theorem setRx_tStart (r : List Byte) (s : State) : (setRx r s).tStart = s.tStart := rfl
@[simp] theorem setRx_ready (r : List Byte) (s : State) : (setRx r s).ready = s.ready := rfl
@[simp] theorem setRx_errCnt (r : List Byte) (s : State) : (setRx r s).errCnt = s.errCnt := rfl
@[simp] theorem setRx_fault (r : List Byte) (s : State) : (setRx r s).fault = s.fault := rfl
@[simp] theorem setRx_rx (r : List Byte) (s : State) : (setRx r s).rx = r := rfl
@[simp] theorem setRx_rxAttached (r : List Byte) (s : State) : (setRx r s).rxAttached = s.rxAttached := rfl
@[simp] theorem setRx_rxClaim (r : List Byte) (s : State) : (setRx r s).rxClaim = s.rxClaim := rfl
@[simp] theorem setRx_tx (r : List Byte) (s : State) : (setRx r s).tx = s.tx := rfl
@[simp] theorem setRx_txAttached (r : List Byte) (s : State) : (setRx r s).txAttached = s.txAttached := rfl
@[simp] theorem setRx_time (r : List Byte) (s : State) : (setRx r s).time = s.time := rfl
@[simp] theorem setRx_script (r : List Byte) (s : State) : (setRx r s).script = s.script := rfl
@[simp] theorem setRx_result (r : List Byte) (s : State) : (setRx r s).result = s.result := rfl
@[simp] theorem setRx_draws (r : List Byte) (s : State) : (setRx r s).draws = s.draws := rfl

/-! ## setScript -/

@[simp] theorem setScript_cfg (r : List HostStep) (s : State) : (setScript r s).cfg = s.cfg := rfl
@[simp] theorem setScript_life (r : List HostStep) (s : State) : (setScript r s).life = s.life := rfl
@[simp] theorem setScript_cap (r : List HostStep) (s : State) : (setScript r s).cap = s.cap := rfl
@[simp] theorem setScript_buf (r : List HostStep) (s : State) : (setScript r s).buf = s.buf := rfl
@[simp] theorem setScript_pos (r : List HostStep) (s : State) : (setScript r s).pos = s.pos := rfl
@[simp] theorem setScript_started (r : List HostStep) (s : State) : (setScript r s).started = s.started := rfl
@[simp] theorem setScript_etxSeen (r : List HostStep) (s : State) : (setScript r s).etxSeen = s.etxSeen := rfl
@[simp] theorem setScript_hiPend (r : List HostStep) (s : State) : (setScript r s).hiPend = s.hiPend := rfl
@[simp] theorem setScript_hiNib (r : List HostStep) (s : State) : (setScript r s).hiNib = s.hiNib := rfl
@[simp] theorem setScript_tStart (r : List HostStep) (s : State) : (setScript r s).tStart = s.tStart := rfl
@[simp] theorem setScript_ready (r : List HostStep) (s : State) : (setScript r s).ready = s.ready := rfl
@[simp] theorem setScript_errCnt (r : List HostStep) (s : State) : (setScript r s).errCnt = s.errCnt := rfl
@[simp] theorem setScript_fault (r : List HostStep) (s : State) : (setScript r s).fault = s.fault := rfl
@[simp] theorem setScript_rx (r : List HostStep) (s : State) : (setScript r s).rx = s.rx := rfl
@[simp] theorem setScript_rxAttached (r : List HostStep) (s : State) : (setScript r s).rxAttached = s.rxAttached := rfl
@[simp] theorem setScript_rxClaim (r : List HostStep) (s : State) : (setScript r s).rxClaim = s.rxClaim := rfl
@[simp] theorem setScript_tx (r : List HostStep) (s : State) : (setScript r s).tx = s.tx := rfl
@[simp] theorem setScript_txAttached (r : List HostStep) (s : State) : (setScript r s).txAttached = s.txAttached := rfl
@[simp] theorem setScript_time (r : List HostStep) (s : State) : (setScript r s).time = s.time := rfl
@[simp] theorem setScript_script (r : List HostStep) (s : State) : (setScript r s).script = r := rfl
@[simp] theorem setScript_result (r : List HostStep) (s : State) : (setScript r s).result = s.result := rfl
@[simp] theorem setScript_draws (r : List HostStep) (s : State) : (setScript r s).draws = s.draws := rfl

@[simp] theorem raiseFault_fault_none (r : Fault) (s : State) (h : s.fault = none) : (raiseFault r s).fault = some r := by
  simp [raiseFault, h]

@[simp] theorem raiseFault_fault_some (r q : Fault) (s : State) (h : s.fault = some q) : (raiseFault r s).fault = some q := by
  simp [raiseFault, h]

/-- Raising a contract fault writes `fault` and nothing else (60_exceptions.md R206). -/
theorem raiseFault_eq (r : Fault) (s : State) (h : s.fault = none) : raiseFault r s = { s with fault := some r } := by
  simp [raiseFault, h]

@[simp] theorem txByte_tx (b : Byte) (s : State) : (txByte s b).tx = s.tx ++ symbolsOf b := by
  simp [txByte, symbolsOf]

end Sys2Proof.Machine
end

