-- ==== Sys2Proof/Laws/Encoder.lean ====
section
/-! SUPPORT. What the Frame Encoder's writes leave alone: every field but the TX stream. -/

namespace Sys2Proof.Machine

/-- The payload's symbols are written to the TX stream and nowhere else. -/
theorem foldl_txByte_frame (p : List Byte) (s : State) : p.foldl txByte s = { s with tx := (p.foldl txByte s).tx } := by
  induction p generalizing s with
  | nil => rfl
  | cons b rest ih =>
    rw [List.foldl_cons, ih]
    rfl

/-- A frame is written to the TX stream and nowhere else (42_frame_encoder.md R130, R132). -/
theorem transmit_frame (p : List Byte) (s : State) : transmit p s = { s with tx := (transmit p s).tx } := by
  unfold transmit
  rw [foldl_txByte_frame]
  rfl

@[simp] theorem transmit_cfg (p : List Byte) (s : State) : (transmit p s).cfg = s.cfg := by rw [transmit_frame]
@[simp] theorem transmit_life (p : List Byte) (s : State) : (transmit p s).life = s.life := by rw [transmit_frame]
@[simp] theorem transmit_cap (p : List Byte) (s : State) : (transmit p s).cap = s.cap := by rw [transmit_frame]
@[simp] theorem transmit_buf (p : List Byte) (s : State) : (transmit p s).buf = s.buf := by rw [transmit_frame]
@[simp] theorem transmit_pos (p : List Byte) (s : State) : (transmit p s).pos = s.pos := by rw [transmit_frame]
@[simp] theorem transmit_started (p : List Byte) (s : State) : (transmit p s).started = s.started := by rw [transmit_frame]
@[simp] theorem transmit_etxSeen (p : List Byte) (s : State) : (transmit p s).etxSeen = s.etxSeen := by rw [transmit_frame]
@[simp] theorem transmit_hiPend (p : List Byte) (s : State) : (transmit p s).hiPend = s.hiPend := by rw [transmit_frame]
@[simp] theorem transmit_hiNib (p : List Byte) (s : State) : (transmit p s).hiNib = s.hiNib := by rw [transmit_frame]
@[simp] theorem transmit_tStart (p : List Byte) (s : State) : (transmit p s).tStart = s.tStart := by rw [transmit_frame]
@[simp] theorem transmit_ready (p : List Byte) (s : State) : (transmit p s).ready = s.ready := by rw [transmit_frame]
@[simp] theorem transmit_errCnt (p : List Byte) (s : State) : (transmit p s).errCnt = s.errCnt := by rw [transmit_frame]
@[simp] theorem transmit_fault (p : List Byte) (s : State) : (transmit p s).fault = s.fault := by rw [transmit_frame]
@[simp] theorem transmit_rx (p : List Byte) (s : State) : (transmit p s).rx = s.rx := by rw [transmit_frame]
@[simp] theorem transmit_rxAttached (p : List Byte) (s : State) : (transmit p s).rxAttached = s.rxAttached := by rw [transmit_frame]
@[simp] theorem transmit_rxClaim (p : List Byte) (s : State) : (transmit p s).rxClaim = s.rxClaim := by rw [transmit_frame]
@[simp] theorem transmit_txAttached (p : List Byte) (s : State) : (transmit p s).txAttached = s.txAttached := by rw [transmit_frame]
@[simp] theorem transmit_time (p : List Byte) (s : State) : (transmit p s).time = s.time := by rw [transmit_frame]
@[simp] theorem transmit_script (p : List Byte) (s : State) : (transmit p s).script = s.script := by rw [transmit_frame]
@[simp] theorem transmit_result (p : List Byte) (s : State) : (transmit p s).result = s.result := by rw [transmit_frame]
@[simp] theorem transmit_draws (p : List Byte) (s : State) : (transmit p s).draws = s.draws := by rw [transmit_frame]

end Sys2Proof.Machine
end

