-- ==== Sys2Proof/Laws/PerInstr.lean ====
section
/-! SUPPORT. Statements for all instructions, one lemma per constructor of Instr. -/

namespace Sys2Proof.Laws.EncodedLength

/-- How many bytes an instruction's encoding has (30_encoding.md R88, R91, R93): CMD 1, CMD_NIBBLE and CMD_BYTE 2,
CMD_BYTES 2 and the operand's length, WIRE_BYTE 1, INTERNAL none. -/
def lengthOf : Instr → Nat
  | .init _ => 2
  | .send p => p.length + 2
  | .enc _ => 2
  | .dec _ => 2
  | .crc8 xs => xs.length + 2
  | .rdData _ => 2
  | .crc8Step _ _ => 0
  | .processByte _ => 0
  | .shutdown | .reset | .poll | .rdReady | .rdLen | .rdErr | .rdStarted | .rdTstart => 1
  | .reserved00 | .reservedF0 | .illegalLowNibble _ _ => 1
  | .wStx | .wEtx | .wNoise _ | .wBad _ => 1
  | .wSym0 | .wSym1 | .wSym2 | .wSym3 | .wSym4 | .wSym5 | .wSym6 | .wSym7 => 1
  | .wSym8 | .wSym9 | .wSymA | .wSymB | .wSymC | .wSymD | .wSymE | .wSymF => 1

/-- The encoder writes that many bytes; the internal operations have no encoding (R89). -/
def Statement (i : Instr) : Prop :=
  ∀ c : Config, ((encode c i).getD []).length = lengthOf i ∧ ((encode c i).isSome = true ↔ i.space ≠ .internal)

theorem init (x : Byte) : Statement (.init x) := fun _ => by simp [encode, lengthOf, Instr.space]
theorem shutdown : Statement .shutdown := fun _ => by simp [encode, lengthOf, Instr.space]
theorem reset : Statement .reset := fun _ => by simp [encode, lengthOf, Instr.space]
theorem poll : Statement .poll := fun _ => by simp [encode, lengthOf, Instr.space]
theorem send (p : List Byte) : Statement (.send p) := fun _ => by simp [encode, lengthOf, Instr.space, Machine.putBytes]
theorem enc (n : Byte) : Statement (.enc n) := fun _ => by simp [encode, lengthOf, Instr.space]
theorem dec (s : Byte) : Statement (.dec s) := fun _ => by simp [encode, lengthOf, Instr.space]
theorem crc8 (xs : List Byte) : Statement (.crc8 xs) := fun _ => by simp [encode, lengthOf, Instr.space, Machine.putBytes]
theorem rdReady : Statement .rdReady := fun _ => by simp [encode, lengthOf, Instr.space]
theorem rdLen : Statement .rdLen := fun _ => by simp [encode, lengthOf, Instr.space]
theorem rdData (i : Byte) : Statement (.rdData i) := fun _ => by simp [encode, lengthOf, Instr.space]
theorem rdErr : Statement .rdErr := fun _ => by simp [encode, lengthOf, Instr.space]
theorem rdStarted : Statement .rdStarted := fun _ => by simp [encode, lengthOf, Instr.space]
theorem rdTstart : Statement .rdTstart := fun _ => by simp [encode, lengthOf, Instr.space]
theorem reserved00 : Statement .reserved00 := fun _ => by simp [encode, lengthOf, Instr.space]
theorem reservedF0 : Statement .reservedF0 := fun _ => by simp [encode, lengthOf, Instr.space]
theorem illegalLowNibble (op low : Nibble) : Statement (.illegalLowNibble op low) := fun _ => by simp [encode, lengthOf, Instr.space]
theorem crc8Step (acc b : Byte) : Statement (.crc8Step acc b) := fun _ => by simp [encode, lengthOf, Instr.space]
theorem processByte (b : Byte) : Statement (.processByte b) := fun _ => by simp [encode, lengthOf, Instr.space]
theorem wStx : Statement .wStx := fun _ => by simp [encode, lengthOf, Instr.space]
theorem wEtx : Statement .wEtx := fun _ => by simp [encode, lengthOf, Instr.space]
theorem wNoise (b : Byte) : Statement (.wNoise b) := fun _ => by simp [encode, lengthOf, Instr.space]
theorem wSym0 : Statement .wSym0 := fun _ => by simp [encode, lengthOf, Instr.space]
theorem wSym1 : Statement .wSym1 := fun _ => by simp [encode, lengthOf, Instr.space]
theorem wSym2 : Statement .wSym2 := fun _ => by simp [encode, lengthOf, Instr.space]
theorem wSym3 : Statement .wSym3 := fun _ => by simp [encode, lengthOf, Instr.space]
theorem wSym4 : Statement .wSym4 := fun _ => by simp [encode, lengthOf, Instr.space]
theorem wSym5 : Statement .wSym5 := fun _ => by simp [encode, lengthOf, Instr.space]
theorem wSym6 : Statement .wSym6 := fun _ => by simp [encode, lengthOf, Instr.space]
theorem wSym7 : Statement .wSym7 := fun _ => by simp [encode, lengthOf, Instr.space]
theorem wSym8 : Statement .wSym8 := fun _ => by simp [encode, lengthOf, Instr.space]
theorem wSym9 : Statement .wSym9 := fun _ => by simp [encode, lengthOf, Instr.space]
theorem wSymA : Statement .wSymA := fun _ => by simp [encode, lengthOf, Instr.space]
theorem wSymB : Statement .wSymB := fun _ => by simp [encode, lengthOf, Instr.space]
theorem wSymC : Statement .wSymC := fun _ => by simp [encode, lengthOf, Instr.space]
theorem wSymD : Statement .wSymD := fun _ => by simp [encode, lengthOf, Instr.space]
theorem wSymE : Statement .wSymE := fun _ => by simp [encode, lengthOf, Instr.space]
theorem wSymF : Statement .wSymF := fun _ => by simp [encode, lengthOf, Instr.space]
theorem wBad (b : Byte) : Statement (.wBad b) := fun _ => by simp [encode, lengthOf, Instr.space]

end Sys2Proof.Laws.EncodedLength
end

