-- ==== Sys2Proof/Laws/Receive.lean ====
section
/-! SUPPORT. Everything PROCESS_BYTE can do, said once. -/

namespace Sys2Proof.Machine

/-- The cases of PROCESS_BYTE (43_receive_fsm.md R141 to R150), each with its condition, its result and the state it leaves. -/
inductive ByteCase (b : Byte) (s : State) : ByteStatus × State → Prop where
  /-- R141. -/
  | startMarker (h : b = s.cfg.stx) : ByteCase b s (.continued, openFrame s)
  /-- R142. -/
  | endMarker (hs : b ≠ s.cfg.stx) (h : b = s.cfg.etx) : ByteCase b s (.continued, markEnd s)
  /-- R143. -/
  | noise (hs : b ≠ s.cfg.stx) (he : b ≠ s.cfg.etx) (h : s.started = false) : ByteCase b s (.continued, s)
  /-- R144. -/
  | invalid (hs : b ≠ s.cfg.stx) (he : b ≠ s.cfg.etx) (hf : s.started = true) (h : decSymbol b = none) :
      ByteCase b s (.continued, errorAction s)
  /-- R145. -/
  | first (n : Nibble) (hs : b ≠ s.cfg.stx) (he : b ≠ s.cfg.etx) (hf : s.started = true) (hn : decSymbol b = some n)
      (h : s.hiPend = false) : ByteCase b s (.continued, holdNibble n s)
  /-- R147. -/
  | matched (n : Nibble) (hs : b ≠ s.cfg.stx) (he : b ≠ s.cfg.etx) (hf : s.started = true) (hn : decSymbol b = some n)
      (hp : s.hiPend = true) (hx : s.etxSeen = true) (h : joinNibbles s.hiNib n = crcOf (payload (clearPair s))) :
      ByteCase b s (.completed, markReady (clearPair s))
  /-- R148. -/
  | mismatched (n : Nibble) (hs : b ≠ s.cfg.stx) (he : b ≠ s.cfg.etx) (hf : s.started = true) (hn : decSymbol b = some n)
      (hp : s.hiPend = true) (hx : s.etxSeen = true) (h : joinNibbles s.hiNib n ≠ crcOf (payload (clearPair s))) :
      ByteCase b s (.continued, errorAction (clearPair s))
  /-- R149. -/
  | appended (n : Nibble) (hs : b ≠ s.cfg.stx) (he : b ≠ s.cfg.etx) (hf : s.started = true) (hn : decSymbol b = some n)
      (hp : s.hiPend = true) (hx : s.etxSeen = false) (h : s.pos < s.cap) :
      ByteCase b s (.continued, appendByte (joinNibbles s.hiNib n) (clearPair s))
  /-- R150. -/
  | overflow (n : Nibble) (hs : b ≠ s.cfg.stx) (he : b ≠ s.cfg.etx) (hf : s.started = true) (hn : decSymbol b = some n)
      (hp : s.hiPend = true) (hx : s.etxSeen = false) (h : ¬ s.pos < s.cap) :
      ByteCase b s (.continued, errorAction (clearPair s))

/-- PROCESS_BYTE takes one of those cases. -/
theorem receiveByte_cases (b : Byte) (s : State) : ByteCase b s (receiveByte b s) := by
  unfold receiveByte
  split
  · exact .startMarker ‹_›
  · split
    · exact .endMarker ‹_› ‹_›
    · split
      · exact .noise ‹_› ‹_› ‹_›
      · rename_i hs he hf
        have hf' : s.started = true := by simpa using hf
        split
        · exact .invalid hs he hf' ‹_›
        · rename_i n hn
          unfold symbolByte
          split
          · rename_i hp
            unfold completedByte
            split
            · rename_i hx
              unfold checksumByte
              split
              · exact .matched n hs he hf' hn hp hx ‹_›
              · exact .mismatched n hs he hf' hn hp hx ‹_›
            · rename_i hx
              have hx' : s.etxSeen = false := by simpa using hx
              unfold payloadByte
              split
              · exact .appended n hs he hf' hn hp hx' ‹_›
              · exact .overflow n hs he hf' hn hp hx' ‹_›
          · rename_i hp
            exact .first n hs he hf' hn (by simpa using hp)

/-- What PROCESS_BYTE never writes. -/
theorem receiveByte_frame (b : Byte) (s : State) :
    (receiveByte b s).2.cfg = s.cfg ∧ (receiveByte b s).2.life = s.life ∧ (receiveByte b s).2.cap = s.cap
      ∧ (receiveByte b s).2.fault = s.fault ∧ (receiveByte b s).2.rx = s.rx ∧ (receiveByte b s).2.rxAttached = s.rxAttached
      ∧ (receiveByte b s).2.rxClaim = s.rxClaim ∧ (receiveByte b s).2.tx = s.tx ∧ (receiveByte b s).2.txAttached = s.txAttached
      ∧ (receiveByte b s).2.time = s.time ∧ (receiveByte b s).2.script = s.script ∧ (receiveByte b s).2.result = s.result := by
  have h := receiveByte_cases b s
  generalize receiveByte b s = r at h
  cases h <;> simp

@[simp] theorem receiveByte_cfg (b : Byte) (s : State) : (receiveByte b s).2.cfg = s.cfg := (receiveByte_frame b s).1
@[simp] theorem receiveByte_life (b : Byte) (s : State) : (receiveByte b s).2.life = s.life := (receiveByte_frame b s).2.1
@[simp] theorem receiveByte_cap (b : Byte) (s : State) : (receiveByte b s).2.cap = s.cap := (receiveByte_frame b s).2.2.1
@[simp] theorem receiveByte_fault (b : Byte) (s : State) : (receiveByte b s).2.fault = s.fault := (receiveByte_frame b s).2.2.2.1
@[simp] theorem receiveByte_rx (b : Byte) (s : State) : (receiveByte b s).2.rx = s.rx := (receiveByte_frame b s).2.2.2.2.1
@[simp] theorem receiveByte_rxAttached (b : Byte) (s : State) : (receiveByte b s).2.rxAttached = s.rxAttached := (receiveByte_frame b s).2.2.2.2.2.1
@[simp] theorem receiveByte_rxClaim (b : Byte) (s : State) : (receiveByte b s).2.rxClaim = s.rxClaim := (receiveByte_frame b s).2.2.2.2.2.2.1
@[simp] theorem receiveByte_tx (b : Byte) (s : State) : (receiveByte b s).2.tx = s.tx := (receiveByte_frame b s).2.2.2.2.2.2.2.1
@[simp] theorem receiveByte_txAttached (b : Byte) (s : State) : (receiveByte b s).2.txAttached = s.txAttached := (receiveByte_frame b s).2.2.2.2.2.2.2.2.1
@[simp] theorem receiveByte_time (b : Byte) (s : State) : (receiveByte b s).2.time = s.time := (receiveByte_frame b s).2.2.2.2.2.2.2.2.2.1
@[simp] theorem receiveByte_script (b : Byte) (s : State) : (receiveByte b s).2.script = s.script := (receiveByte_frame b s).2.2.2.2.2.2.2.2.2.2.1
@[simp] theorem receiveByte_result (b : Byte) (s : State) : (receiveByte b s).2.result = s.result := (receiveByte_frame b s).2.2.2.2.2.2.2.2.2.2.2

/-- A symbol row is PROCESS_BYTE on the symbol, wherever the symbol is no marker. -/
theorem symbolInFrame_eq (n : Nibble) (b : Byte) (s : State) (hs : b ≠ s.cfg.stx) (he : b ≠ s.cfg.etx) (hn : decSymbol b = some n) :
    symbolInFrame n s = receiveByte b s := by
  cases hf : s.started <;> simp [symbolInFrame, receiveByte, hs, he, hf, hn]

/-- A symbol row never writes the parameters, the lifecycle, the capacity or the fault. -/
theorem symbolInFrame_frame (n : Nibble) (s : State) :
    (symbolInFrame n s).2.cfg = s.cfg ∧ (symbolInFrame n s).2.life = s.life ∧ (symbolInFrame n s).2.cap = s.cap
      ∧ (symbolInFrame n s).2.fault = s.fault := by
  unfold symbolInFrame symbolByte completedByte checksumByte payloadByte noiseByte
  split_ifs <;> simp

/-! ## The receiver does not depend on the transport, the script or the last result -/

/-- An update of fields that PROCESS_BYTE neither reads nor writes. -/
structure Unread (f : State → State) : Prop where
  cfg : ∀ s, (f s).cfg = s.cfg
  cap : ∀ s, (f s).cap = s.cap
  pos : ∀ s, (f s).pos = s.pos
  started : ∀ s, (f s).started = s.started
  etxSeen : ∀ s, (f s).etxSeen = s.etxSeen
  hiPend : ∀ s, (f s).hiPend = s.hiPend
  hiNib : ∀ s, (f s).hiNib = s.hiNib
  payload : ∀ s, payload (f s) = payload s
  openFrame : ∀ s, openFrame (f s) = f (openFrame s)
  markEnd : ∀ s, markEnd (f s) = f (markEnd s)
  errorAction : ∀ s, errorAction (f s) = f (errorAction s)
  clearPair : ∀ s, clearPair (f s) = f (clearPair s)
  holdNibble : ∀ n s, holdNibble n (f s) = f (holdNibble n s)
  appendByte : ∀ v s, appendByte v (f s) = f (appendByte v s)
  markReady : ∀ s, markReady (f s) = f (markReady s)

/-- Such an update before the byte is the same update after it, and PROCESS_BYTE's result is the same. -/
theorem receiveByte_unread {f : State → State} (hf : Unread f) (b : Byte) (s : State) :
    receiveByte b (f s) = ((receiveByte b s).1, f (receiveByte b s).2) := by
  simp only [receiveByte, startMarker, endMarker, noiseByte, invalidSymbol, symbolByte, completedByte, checksumByte, payloadByte,
    hf.cfg, hf.started, hf.hiPend, hf.hiNib, hf.openFrame, hf.markEnd, hf.errorAction, hf.clearPair, hf.holdNibble, hf.appendByte,
    hf.payload, hf.markReady, hf.etxSeen, hf.pos, hf.cap]
  by_cases h₁ : b = s.cfg.stx
  · simp only [eq_true h₁, if_true]
  by_cases h₂ : b = s.cfg.etx
  · simp only [eq_false h₁, eq_true h₂, if_true, if_false]
  by_cases h₃ : s.started = false
  · simp only [eq_false h₁, eq_false h₂, eq_true h₃, if_true, if_false]
  simp only [eq_false h₁, eq_false h₂, eq_false h₃, if_false]
  cases decSymbol b with
  | none => rfl
  | some n =>
    dsimp only
    by_cases h₄ : s.hiPend = true
    · simp only [eq_true h₄, if_true]
      by_cases h₅ : (clearPair s).etxSeen = true
      · simp only [eq_true h₅, if_true]
        by_cases h₆ : joinNibbles s.hiNib n = crcOf (payload (clearPair s))
        · simp only [eq_true h₆, if_true]
        · simp only [eq_false h₆, if_false]
      · simp only [eq_false h₅, if_false]
        by_cases h₆ : (clearPair s).pos < (clearPair s).cap
        · simp only [eq_true h₆, if_true]
        · simp only [eq_false h₆, if_false]
    · simp only [eq_false h₄, if_false]

theorem receiveByte_of_setRx (b : Byte) (r : List Byte) (s : State) :
    receiveByte b (setRx r s) = ((receiveByte b s).1, setRx r (receiveByte b s).2) :=
  receiveByte_unread (f := setRx r) (by constructor <;> intros <;> rfl) b s

theorem receiveByte_of_setScript (b : Byte) (r : List HostStep) (s : State) :
    receiveByte b (setScript r s) = ((receiveByte b s).1, setScript r (receiveByte b s).2) :=
  receiveByte_unread (f := setScript r) (by constructor <;> intros <;> rfl) b s

theorem receiveByte_of_setResult (b : Byte) (r : OpResult) (s : State) :
    receiveByte b (setResult r s) = ((receiveByte b s).1, setResult r (receiveByte b s).2) :=
  receiveByte_unread (f := setResult r) (by constructor <;> intros <;> rfl) b s

theorem receiveByte_of_rxClaim (b : Byte) (k : Option Int) (s : State) :
    receiveByte b { s with rxClaim := k } = ((receiveByte b s).1, { (receiveByte b s).2 with rxClaim := k }) :=
  receiveByte_unread (f := fun s => { s with rxClaim := k }) (by constructor <;> intros <;> rfl) b s

end Sys2Proof.Machine
end

