-- ==== Sys2Proof/Laws/Poll.lean ====
section
/-! SUPPORT. POLL's loop: everything one iteration can do, and the loop's bound never shows. -/

namespace Sys2Proof.Machine

/-- Everything one iteration of POLL can do (44_host_operations.md R170). -/
inductive IterationCase (s : State) : Iteration → Prop where
  /-- `RxAvailable()` answers 0 or less: POLL returns false. -/
  | nothing (h : rxAvailable s ≤ 0) : IterationCase s (.done (setResult (.flag false) s))
  /-- `RxRead()` finds no byte: F_TRANSPORT. -/
  | broken (h : 0 < rxAvailable s) (hr : s.rx = []) : IterationCase s (.done (raiseFault .transport s))
  /-- The byte completes a packet: POLL returns true. -/
  | completes (b : Byte) (rest : List Byte) (h : 0 < rxAvailable s) (hr : s.rx = b :: rest)
      (hc : (receiveByte b (setRx rest s)).1 = .completed) :
      IterationCase s (.done (setResult (.flag true) (receiveByte b (setRx rest s)).2))
  /-- The loop goes on. -/
  | goesOn (b : Byte) (rest : List Byte) (h : 0 < rxAvailable s) (hr : s.rx = b :: rest)
      (hc : (receiveByte b (setRx rest s)).1 = .continued) : IterationCase s (.again (receiveByte b (setRx rest s)).2)

/-- An iteration takes one of those cases. -/
theorem pollIteration_cases (s : State) : IterationCase s (pollIteration s) := by
  unfold pollIteration
  split
  · exact .nothing ‹_›
  · rename_i h
    have hpos : 0 < rxAvailable s := by omega
    split
    · exact .broken hpos ‹_›
    · rename_i b rest hr
      split
      · rename_i t hc
        have := IterationCase.completes (s := s) b rest hpos hr (by rw [hc])
        rwa [hc] at this
      · rename_i t hc
        have := IterationCase.goesOn (s := s) b rest hpos hr (by rw [hc])
        rwa [hc] at this

/-- An iteration after which the loop goes on has read one byte. -/
theorem pollIteration_again_rx (s t : State) (h : pollIteration s = .again t) : s.rx.length = t.rx.length + 1 := by
  have hc := pollIteration_cases s
  rw [h] at hc
  cases hc with
  | goesOn b rest hp hr hcont =>
    have hf := (receiveByte_frame b (setRx rest s)).2.2.2.2.1
    rw [hf, hr]
    rfl

/-- Any bound that is long enough gives the same drain: the loop ends by the stream, never by the bound. -/
theorem drainQuiet_bound (bound : List Byte) (s : State) (h : s.rx.length ≤ bound.length) :
    drainQuiet bound s = drainQuiet s.rx s := by
  generalize hn : s.rx.length = n at h
  induction n generalizing bound s with
  | zero =>
    have key : ∀ t, pollIteration s ≠ .again t := fun t ht => by
      have := pollIteration_again_rx s t ht
      omega
    cases hp : pollIteration s with
    | again t => exact absurd hp (key t)
    | done t => cases bound <;> cases hs : s.rx <;> simp [drainQuiet, hp]
  | succ n ih =>
    cases hp : pollIteration s with
    | done t => cases bound <;> cases hs : s.rx <;> simp [drainQuiet, hp]
    | again t =>
      have hlen := pollIteration_again_rx s t hp
      have ht : t.rx.length = n := by omega
      cases bound with
      | nil => simp at h
      | cons x xs =>
        cases hs : s.rx with
        | nil => simp [hs] at hn
        | cons y ys =>
          have hxs : n ≤ xs.length := by simpa using h
          have hys : n ≤ ys.length := by simp [hs] at hn; omega
          simp only [drainQuiet, hp]
          rw [ih xs t ht hxs, ih ys t ht hys]

/-- The loop of R170, one iteration unfolded. -/
theorem drainQuiet_eq (s : State) :
    drainQuiet s.rx s = match pollIteration s with
      | .done t => t
      | .again t => drainQuiet t.rx t := by
  cases hp : pollIteration s with
  | done t => cases hs : s.rx <;> simp [drainQuiet, hp]
  | again t =>
    have hlen := pollIteration_again_rx s t hp
    cases hs : s.rx with
    | nil => simp [hs] at hlen
    | cons y ys =>
      simp only [drainQuiet, hp]
      exact drainQuiet_bound ys t (by simp [hs] at hlen; omega)

/-- A byte after which the loop goes on: the rest of the drain is the drain from the state after the byte. -/
theorem drainQuiet_goesOn (s : State) (b : Byte) (rest : List Byte) (h : 0 < rxAvailable s) (hr : s.rx = b :: rest)
    (hc : (receiveByte b (setRx rest s)).1 = .continued) :
    drainQuiet s.rx s = drainQuiet (receiveByte b (setRx rest s)).2.rx (receiveByte b (setRx rest s)).2 := by
  rw [drainQuiet_eq]
  have hi := pollIteration_cases s
  generalize pollIteration s = it at hi
  cases hi with
  | nothing hn => omega
  | broken _ he => simp [he] at hr
  | completes b' rest' _ hr' hc' =>
    rw [hr] at hr'
    cases hr'
    simp [hc] at hc'
  | goesOn b' rest' _ hr' =>
    rw [hr] at hr'
    cases hr'
    rfl

/-- A byte that completes a packet ends the drain at once, with true. -/
theorem drainQuiet_completes (s : State) (b : Byte) (rest : List Byte) (h : 0 < rxAvailable s) (hr : s.rx = b :: rest)
    (hc : (receiveByte b (setRx rest s)).1 = .completed) :
    drainQuiet s.rx s = setResult (.flag true) (receiveByte b (setRx rest s)).2 := by
  rw [drainQuiet_eq]
  have hi := pollIteration_cases s
  generalize pollIteration s = it at hi
  cases hi with
  | nothing hn => omega
  | broken _ he => simp [he] at hr
  | completes b' rest' _ hr' =>
    rw [hr] at hr'
    cases hr'
    rfl
  | goesOn b' rest' _ hr' hc' =>
    rw [hr] at hr'
    cases hr'
    simp [hc] at hc'

/-- Nothing available: the drain ends with false. -/
theorem drainQuiet_nothing (s : State) (h : rxAvailable s ≤ 0) : drainQuiet s.rx s = setResult (.flag false) s := by
  rw [drainQuiet_eq]
  have hi := pollIteration_cases s
  generalize pollIteration s = it at hi
  cases hi with
  | nothing => rfl
  | broken hp => omega
  | completes _ _ hp => omega
  | goesOn _ _ hp => omega

/-- What every byte, a result and F_TRANSPORT keep, the quiet loop keeps: the induction over POLL's loop, packaged once. -/
theorem drainQuiet_keeps (P : State → Prop) (byte : ∀ b rest s, s.rx = b :: rest → P s → P (receiveByte b (setRx rest s)).2)
    (result : ∀ r s, P s → P (setResult r s)) (broken : ∀ s, P s → P (raiseFault .transport s)) (bound : List Byte) (s : State)
    (h : P s) : P (drainQuiet bound s) := by
  induction bound generalizing s with
  | nil =>
    have hc := pollIteration_cases s
    unfold drainQuiet
    generalize pollIteration s = it at hc
    cases hc with
    | nothing => exact result _ _ h
    | broken => exact broken _ h
    | completes b rest _ hr => exact result _ _ (byte b rest s hr h)
    | goesOn b rest _ hr => exact byte b rest s hr h
  | cons x xs ih =>
    have hc := pollIteration_cases s
    unfold drainQuiet
    generalize pollIteration s = it at hc
    cases hc with
    | nothing => exact result _ _ h
    | broken => exact broken _ h
    | completes b rest _ hr => exact result _ _ (byte b rest s hr h)
    | goesOn b rest _ hr => exact ih _ (byte b rest s hr h)

/-- What host steps and taking entries off the script keep as well, the whole loop keeps. -/
theorem drain_keeps (P : State → Prop) (byte : ∀ b rest s, s.rx = b :: rest → P s → P (receiveByte b (setRx rest s)).2)
    (result : ∀ r s, P s → P (setResult r s)) (broken : ∀ s, P s → P (raiseFault .transport s))
    (host : ∀ es rest s, P s → P (applyEnvs es (setScript rest s))) (script : List HostStep) (s : State) (h : P s) :
    P (drain script s) := by
  induction script generalizing s with
  | nil => exact drainQuiet_keeps P byte result broken s.rx s h
  | cons entry rest ih =>
    cases entry with
    | command bs => exact drainQuiet_keeps P byte result broken s.rx s h
    | call i => exact drainQuiet_keeps P byte result broken s.rx s h
    | env e => exact drainQuiet_keeps P byte result broken s.rx s h
    | during es =>
      have hu := host es rest s h
      unfold drain
      generalize applyEnvs es (setScript rest s) = u at hu
      have hc := pollIteration_cases u
      generalize pollIteration u = it at hc
      cases hc with
      | nothing => exact result _ _ hu
      | broken => exact broken _ hu
      | completes b more _ hr => exact result _ _ (byte b more u hr hu)
      | goesOn b more _ hr => exact ih _ (byte b more u hr hu)

/-- The loop's own induction: `P` holds before every iteration, `Q` of the state POLL leaves. -/
theorem drainQuiet_ends (P Q : State → Prop)
    (goesOn : ∀ b rest s, 0 < rxAvailable s → s.rx = b :: rest → P s → (receiveByte b (setRx rest s)).1 = .continued →
      P (receiveByte b (setRx rest s)).2)
    (completes : ∀ b rest s, 0 < rxAvailable s → s.rx = b :: rest → P s → (receiveByte b (setRx rest s)).1 = .completed →
      Q (setResult (.flag true) (receiveByte b (setRx rest s)).2))
    (nothing : ∀ s, rxAvailable s ≤ 0 → P s → Q (setResult (.flag false) s))
    (broken : ∀ s, 0 < rxAvailable s → s.rx = [] → P s → Q (raiseFault .transport s)) (s : State) (h : P s) :
    Q (drainQuiet s.rx s) := by
  generalize hn : s.rx.length = n
  induction n generalizing s with
  | zero =>
    rw [drainQuiet_eq]
    have hc := pollIteration_cases s
    generalize pollIteration s = it at hc
    cases hc with
    | nothing hp => exact nothing s hp h
    | broken hp hr => exact broken s hp hr h
    | completes b rest _ hr => simp [hr] at hn
    | goesOn b rest _ hr => simp [hr] at hn
  | succ n ih =>
    rw [drainQuiet_eq]
    have hc := pollIteration_cases s
    generalize pollIteration s = it at hc
    cases hc with
    | nothing hp => exact nothing s hp h
    | broken hp hr => exact broken s hp hr h
    | completes b rest hp hr hst => exact completes b rest s hp hr h hst
    | goesOn b rest hp hr hst =>
      refine ih _ (goesOn b rest s hp hr h hst) ?_
      rw [receiveByte_rx]
      simp [hr] at hn
      exact hn

/-- The same for the loop with the host steps that interleave, which must keep `P`. -/
theorem drain_ends (P Q : State → Prop)
    (goesOn : ∀ b rest s, 0 < rxAvailable s → s.rx = b :: rest → P s → (receiveByte b (setRx rest s)).1 = .continued →
      P (receiveByte b (setRx rest s)).2)
    (completes : ∀ b rest s, 0 < rxAvailable s → s.rx = b :: rest → P s → (receiveByte b (setRx rest s)).1 = .completed →
      Q (setResult (.flag true) (receiveByte b (setRx rest s)).2))
    (nothing : ∀ s, rxAvailable s ≤ 0 → P s → Q (setResult (.flag false) s))
    (broken : ∀ s, 0 < rxAvailable s → s.rx = [] → P s → Q (raiseFault .transport s))
    (host : ∀ es rest s, P s → P (applyEnvs es (setScript rest s))) (script : List HostStep) (s : State) (h : P s) :
    Q (drain script s) := by
  induction script generalizing s with
  | nil => exact drainQuiet_ends P Q goesOn completes nothing broken s h
  | cons entry rest ih =>
    cases entry with
    | command bs => exact drainQuiet_ends P Q goesOn completes nothing broken s h
    | call i => exact drainQuiet_ends P Q goesOn completes nothing broken s h
    | env e => exact drainQuiet_ends P Q goesOn completes nothing broken s h
    | during es =>
      have hu := host es rest s h
      unfold drain
      generalize applyEnvs es (setScript rest s) = u at hu
      have hc := pollIteration_cases u
      generalize pollIteration u = it at hc
      cases hc with
      | nothing hp => exact nothing u hp hu
      | broken hp hr => exact broken u hp hr hu
      | completes b more hp hr hst => exact completes b more u hp hr hu hst
      | goesOn b more hp hr hst => exact ih _ (goesOn b more u hp hr hu hst)

end Sys2Proof.Machine
end

