-- ==== Sys2Proof/Laws/Step.lean ====
section
/-! SUPPORT. Everything a step can do, said once. -/

namespace Sys2Proof.Machine

/-- Every instruction answers a next state: no meaning of this model stops. -/
theorem exec_answers_next (i : Instr) (s : State) : ∃ t, exec i s = .next t := by
  cases i <;> exact ⟨_, rfl⟩

/-- A symbol row runs PROCESS_BYTE's symbol case for its nibble. -/
theorem exec_symbolRow (r : Instr × Nibble) (h : r ∈ symbolRows) (s : State) :
    exec r.1 s = .next (finishByte (symbolInFrame r.2 s)) := by
  fin_cases h <;> rfl

/-- A step that answers a next state: no fault is recorded, and the host is idle, a host step took place, or an operation ran. -/
theorem step_cases (s t : State) (h : step s = .next t) :
    s.fault = none ∧ ((fetch s = .idle ∧ t = s) ∨ fetch s = .host t ∨ ∃ i u, fetch s = .run i u ∧ exec i u = .next t) := by
  unfold step at h
  split at h
  · cases h
  · rename_i hf
    refine ⟨hf, ?_⟩
    split at h
    · rename_i hx
      cases h
      exact .inl ⟨hx, rfl⟩
    · rename_i u hx
      cases h
      exact .inr (.inl hx)
    · rename_i i u hx
      exact .inr (.inr ⟨i, u, hx, h⟩)
    · cases h

/-- An operation is fetched with nothing changed but the script. -/
theorem fetch_run (s u : State) (i : Instr) (h : fetch s = .run i u) : u = setScript u.script s := by
  unfold fetch at h
  split at h
  · cases h
  · cases h
  · cases h
  · split at h
    · cases h
      rfl
    · cases h
  · unfold fetchCommand at h
    split at h <;> cases h
    rfl

/-- A host step touches the interfaces and the script alone. -/
theorem applyEnv_frame (e : EnvStep) (s : State) :
    applyEnv e s = { s with rx := (applyEnv e s).rx, rxAttached := (applyEnv e s).rxAttached, rxClaim := (applyEnv e s).rxClaim,
                            tx := (applyEnv e s).tx, txAttached := (applyEnv e s).txAttached, time := (applyEnv e s).time } := by
  cases e <;> rfl

/-- Host steps in order touch the interfaces alone. -/
theorem applyEnvs_frame (es : List EnvStep) (s : State) :
    applyEnvs es s = { s with rx := (applyEnvs es s).rx, rxAttached := (applyEnvs es s).rxAttached, rxClaim := (applyEnvs es s).rxClaim,
                              tx := (applyEnvs es s).tx, txAttached := (applyEnvs es s).txAttached, time := (applyEnvs es s).time } := by
  induction es generalizing s with
  | nil => rfl
  | cons e rest ih =>
    have h := ih (applyEnv e s)
    have he := applyEnv_frame e s
    simp only [applyEnvs, List.foldl_cons] at h ⊢
    rw [h]
    rw [he]

@[simp] theorem applyEnvs_cfg (es : List EnvStep) (s : State) : (applyEnvs es s).cfg = s.cfg := by rw [applyEnvs_frame]
@[simp] theorem applyEnvs_life (es : List EnvStep) (s : State) : (applyEnvs es s).life = s.life := by rw [applyEnvs_frame]
@[simp] theorem applyEnvs_cap (es : List EnvStep) (s : State) : (applyEnvs es s).cap = s.cap := by rw [applyEnvs_frame]
@[simp] theorem applyEnvs_buf (es : List EnvStep) (s : State) : (applyEnvs es s).buf = s.buf := by rw [applyEnvs_frame]
@[simp] theorem applyEnvs_pos (es : List EnvStep) (s : State) : (applyEnvs es s).pos = s.pos := by rw [applyEnvs_frame]
@[simp] theorem applyEnvs_started (es : List EnvStep) (s : State) : (applyEnvs es s).started = s.started := by rw [applyEnvs_frame]
@[simp] theorem applyEnvs_etxSeen (es : List EnvStep) (s : State) : (applyEnvs es s).etxSeen = s.etxSeen := by rw [applyEnvs_frame]
@[simp] theorem applyEnvs_hiPend (es : List EnvStep) (s : State) : (applyEnvs es s).hiPend = s.hiPend := by rw [applyEnvs_frame]
@[simp] theorem applyEnvs_hiNib (es : List EnvStep) (s : State) : (applyEnvs es s).hiNib = s.hiNib := by rw [applyEnvs_frame]
@[simp] theorem applyEnvs_tStart (es : List EnvStep) (s : State) : (applyEnvs es s).tStart = s.tStart := by rw [applyEnvs_frame]
@[simp] theorem applyEnvs_ready (es : List EnvStep) (s : State) : (applyEnvs es s).ready = s.ready := by rw [applyEnvs_frame]
@[simp] theorem applyEnvs_errCnt (es : List EnvStep) (s : State) : (applyEnvs es s).errCnt = s.errCnt := by rw [applyEnvs_frame]
@[simp] theorem applyEnvs_fault (es : List EnvStep) (s : State) : (applyEnvs es s).fault = s.fault := by rw [applyEnvs_frame]
@[simp] theorem applyEnvs_script (es : List EnvStep) (s : State) : (applyEnvs es s).script = s.script := by rw [applyEnvs_frame]
@[simp] theorem applyEnvs_result (es : List EnvStep) (s : State) : (applyEnvs es s).result = s.result := by rw [applyEnvs_frame]
@[simp] theorem applyEnvs_draws (es : List EnvStep) (s : State) : (applyEnvs es s).draws = s.draws := by rw [applyEnvs_frame]

@[simp] theorem applyEnv_cfg (e : EnvStep) (s : State) : (applyEnv e s).cfg = s.cfg := by rw [applyEnv_frame]
@[simp] theorem applyEnv_life (e : EnvStep) (s : State) : (applyEnv e s).life = s.life := by rw [applyEnv_frame]
@[simp] theorem applyEnv_cap (e : EnvStep) (s : State) : (applyEnv e s).cap = s.cap := by rw [applyEnv_frame]
@[simp] theorem applyEnv_buf (e : EnvStep) (s : State) : (applyEnv e s).buf = s.buf := by rw [applyEnv_frame]
@[simp] theorem applyEnv_pos (e : EnvStep) (s : State) : (applyEnv e s).pos = s.pos := by rw [applyEnv_frame]
@[simp] theorem applyEnv_started (e : EnvStep) (s : State) : (applyEnv e s).started = s.started := by rw [applyEnv_frame]
@[simp] theorem applyEnv_etxSeen (e : EnvStep) (s : State) : (applyEnv e s).etxSeen = s.etxSeen := by rw [applyEnv_frame]
@[simp] theorem applyEnv_hiPend (e : EnvStep) (s : State) : (applyEnv e s).hiPend = s.hiPend := by rw [applyEnv_frame]
@[simp] theorem applyEnv_hiNib (e : EnvStep) (s : State) : (applyEnv e s).hiNib = s.hiNib := by rw [applyEnv_frame]
@[simp] theorem applyEnv_tStart (e : EnvStep) (s : State) : (applyEnv e s).tStart = s.tStart := by rw [applyEnv_frame]
@[simp] theorem applyEnv_ready (e : EnvStep) (s : State) : (applyEnv e s).ready = s.ready := by rw [applyEnv_frame]
@[simp] theorem applyEnv_errCnt (e : EnvStep) (s : State) : (applyEnv e s).errCnt = s.errCnt := by rw [applyEnv_frame]
@[simp] theorem applyEnv_fault (e : EnvStep) (s : State) : (applyEnv e s).fault = s.fault := by rw [applyEnv_frame]
@[simp] theorem applyEnv_script (e : EnvStep) (s : State) : (applyEnv e s).script = s.script := by rw [applyEnv_frame]
@[simp] theorem applyEnv_result (e : EnvStep) (s : State) : (applyEnv e s).result = s.result := by rw [applyEnv_frame]
@[simp] theorem applyEnv_draws (e : EnvStep) (s : State) : (applyEnv e s).draws = s.draws := by rw [applyEnv_frame]

/-- An honest source answers the length of the stream. -/
theorem rxAvailable_honest (s : State) (h : s.honest = true) : rxAvailable s = (s.rx.length : Int) := by
  simp only [State.honest, Bool.and_eq_true, Option.isNone_iff_eq_none] at h
  simp [rxAvailable, h.1, h.2]

/-- A POLL that no host step interleaves with is the quiet loop. -/
theorem drain_quiet (s : State) (h : s.quiet = true) : drain s.script s = drainQuiet s.rx s := by
  unfold State.quiet at h
  cases hs : s.script with
  | nil => rfl
  | cons entry rest => cases entry <;> simp_all [drain]

/-- A POLL of a LIVE instance with no packet ready is the loop. -/
theorem exec_poll_live (s : State) (hl : s.life = .live) (hr : s.ready = false) : exec .poll s = .next (drain s.script s) := by
  simp [exec, execPoll, whenLive, hl, hr]

/-- POLL never writes the parameters, the lifecycle or the capacity. -/
@[simp] theorem drain_cfg (script : List HostStep) (s : State) : (drain script s).cfg = s.cfg := by
  apply drain_keeps (fun t => t.cfg = s.cfg) <;> intros <;> simp_all

@[simp] theorem drain_life (script : List HostStep) (s : State) : (drain script s).life = s.life := by
  apply drain_keeps (fun t => t.life = s.life) <;> intros <;> simp_all

@[simp] theorem drain_cap (script : List HostStep) (s : State) : (drain script s).cap = s.cap := by
  apply drain_keeps (fun t => t.cap = s.cap) <;> intros <;> simp_all

end Sys2Proof.Machine
end

