-- ==== Sys2Proof/Tests/Slice0.lean ====
section
/-! SUPPORT. Tests: ill-formed terms, words written out from the encodings of spec/, one-step vectors of 95_test_vectors.md, and a witness for the hypotheses of each statement. -/

namespace Sys2Proof.Tests

open Sys2Proof Sys2Proof.Machine

/-- The state after an outcome, where there is one. -/
def after : Host.Outcome State Fault Refusal → Option State
  | .next s => some s
  | .fault _ => none
  | .refused _ => none

/-- A LIVE instance in Idle after `INIT 04`, with `Now()` returning 0x64, both interfaces attached, and these bytes on the RX stream. -/
def live (rx : List Byte) : State :=
  { State.reset with life := .live, cap := 4#8, rxAttached := true, txAttached := true, time := some 0x64, rx := rx }

/-- The same, inside a frame. -/
def open4 (rx : List Byte) : State := { live rx with started := true, tStart := 7 }

/-- An instance whose host is about to do these things. -/
def scripted (script : List HostStep) : State := { live [] with script := script }

/-- Complete with the payload [41, 42] (V-RX1). -/
def complete : State :=
  { open4 [] with etxSeen := true, ready := true, pos := 2#8, buf := [(0, 0x41#8), (1, 0x42#8)] }

/-- A byte of each payload length up to the buffer's limit of the format. -/
def payload255 : List Byte := List.replicate 255 0x41#8

/-- One byte too long (30_encoding.md R88). -/
def payload256 : List Byte := List.replicate 256 0x41#8

/-! ## Ill-formed terms -/

theorem test_defaultConfig_wf : defaultConfig.wf = true := by decide

/-- Equal markers, a marker that is a valid symbol, a counter of no bits, a start value too wide, a timestamp of no bits (00_scope.md R6, 30_encoding.md R84). -/
theorem test_config_ill_formed :
    ({ defaultConfig with etx := 0x02#8 } : Config).wf = false ∧ ({ defaultConfig with stx := 0x0F#8 } : Config).wf = false ∧
    ({ defaultConfig with etx := 0xF0#8 } : Config).wf = false ∧ ({ defaultConfig with errW := 0 } : Config).wf = false ∧
    ({ defaultConfig with errW := 1, errInit := 2 } : Config).wf = false ∧ ({ defaultConfig with tsW := 0 } : Config).wf = false := by decide

theorem test_send_256_ill_formed : (Instr.send payload256).wellFormed defaultConfig = false := by decide +kernel
theorem test_crc8_256_ill_formed : (Instr.crc8 payload256).wellFormed defaultConfig = false := by decide +kernel
theorem test_enc_1F_ill_formed : (Instr.enc 0x1F#8).wellFormed defaultConfig = false := by decide
theorem test_illegal_low_0_ill_formed : (Instr.illegalLowNibble 4#4 0#4).wellFormed defaultConfig = false := by decide

/-- W_NOISE and W_BAD hold no byte that a row of smaller priority matches (30_encoding.md R85). -/
theorem test_wire_ill_formed :
    (Instr.wNoise 0x02#8).wellFormed defaultConfig = false ∧ (Instr.wNoise 0x03#8).wellFormed defaultConfig = false ∧
    (Instr.wBad 0x02#8).wellFormed defaultConfig = false ∧ (Instr.wBad 0x03#8).wellFormed defaultConfig = false ∧
    (Instr.wBad 0x4B#8).wellFormed defaultConfig = false := by decide

/-! ## Decoding: words written out from 30_encoding.md R80, R85, R88, R89, R90 -/

theorem test_decode_lifecycle :
    decodeCommand [0x10#8, 0x04#8] = .ok (.init 0x04#8) [] ∧ decodeCommand [0x20#8] = .ok .shutdown [] ∧
    decodeCommand [0x30#8] = .ok .reset [] ∧ decodeCommand [0x40#8, 0x90#8] = .ok .poll [0x90#8] := by decide

theorem test_decode_codec_and_frame :
    decodeCommand [0x50#8, 0x02#8, 0x41#8, 0x42#8] = .ok (.send [0x41#8, 0x42#8]) [] ∧
    decodeCommand [0x60#8, 0x04#8] = .ok (.enc 0x04#8) [] ∧ decodeCommand [0x70#8, 0x4B#8] = .ok (.dec 0x4B#8) [] ∧
    decodeCommand [0x80#8, 0x01#8, 0x41#8, 0x42#8] = .ok (.crc8 [0x41#8]) [0x42#8] := by decide

theorem test_decode_reads :
    decodeCommand [0x90#8] = .ok .rdReady [] ∧ decodeCommand [0xA0#8] = .ok .rdLen [] ∧
    decodeCommand [0xB0#8, 0x01#8] = .ok (.rdData 0x01#8) [] ∧ decodeCommand [0xC0#8] = .ok .rdErr [] ∧
    decodeCommand [0xD0#8] = .ok .rdStarted [] ∧ decodeCommand [0xE0#8] = .ok .rdTstart [] := by decide

theorem test_decode_illegal :
    decodeCommand [0x00#8] = .ok .reserved00 [] ∧ decodeCommand [0xF0#8] = .ok .reservedF0 [] ∧
    decodeCommand [0x41#8] = .ok (.illegalLowNibble 0x4#4 0x1#4) [] ∧ decodeCommand [0x0F#8] = .ok (.illegalLowNibble 0x0#4 0xF#4) [] := by decide

theorem test_decode_rejects :
    decodeCommand [] = .noWord ∧ decodeCommand [0x10#8] = .missingOperand 0x1#4 ∧
    decodeCommand [0x50#8, 0x02#8, 0x41#8] = .missingOperand 0x5#4 ∧ decode defaultConfig .internal [0x00#8] = .noEncoding := by decide

theorem test_decode_wire_markers :
    classify defaultConfig false 0x02#8 = .wStx ∧ classify defaultConfig true 0x02#8 = .wStx ∧
    classify defaultConfig false 0x03#8 = .wEtx ∧ classify defaultConfig true 0x03#8 = .wEtx ∧
    classify defaultConfig false 0x4B#8 = .wNoise 0x4B#8 ∧ classify defaultConfig false 0x00#8 = .wNoise 0x00#8 ∧
    classify defaultConfig true 0x1F#8 = .wBad 0x1F#8 ∧ classify defaultConfig true 0x00#8 = .wBad 0x00#8 := by decide

theorem test_decode_wire_symbols :
    ([0x0F#8, 0x1E#8, 0x2D#8, 0x3C#8, 0x4B#8, 0x5A#8, 0x69#8, 0x78#8, 0x87#8, 0x96#8, 0xA5#8, 0xB4#8, 0xC3#8, 0xD2#8, 0xE1#8, 0xF0#8] : List Byte).map
      (classify defaultConfig true) =
    [.wSym0, .wSym1, .wSym2, .wSym3, .wSym4, .wSym5, .wSym6, .wSym7, .wSym8, .wSym9, .wSymA, .wSymB, .wSymC, .wSymD, .wSymE, .wSymF] := by decide

/-- Table words as the host numbers them: the first byte in bits 7..0. -/
theorem test_table_words :
    decodeTableWord 16 0x0410 = some (.init 0x04#8) ∧ decodeTableWord 8 0x40 = some .poll ∧ decodeTableWord 8 0xC3 = some .wSymC ∧
    decodeTableWord 8 0x02 = some .wStx ∧ decodeTableWord 8 0x50 = some (.send []) ∧ decodeTableWord 8 0x41 = some (.illegalLowNibble 0x4#4 0x1#4) := by decide +kernel

/-- The step after reset runs a table word that stands where it fetches. -/
theorem test_withFetchWord_init :
    (after (step (State.reset.withFetchWord 16 0x0410))).map (fun t => (t.life, t.cap)) = some (.live, 0x04#8) := by decide

/-- The step after reset runs a wire-byte word as the byte its POLL reads: 0x4B is held as the high nibble 4 (43_receive_fsm.md R145). -/
theorem test_withFetchWord_symbol :
    (after (step (State.reset.withFetchWord 8 0x4B))).map (fun t => (t.hiPend, t.hiNib, t.rx)) = some (true, 0x4#4, []) := by decide

/-! ## One-step vectors of 95_test_vectors.md -/

/-- L2.1, L2.2 and the corner cases of 40_symbol_codec.md R110, R111. -/
theorem test_codec : encSymbol 0x4#4 = 0x4B#8 ∧ encSymbol 0x0#4 = 0x0F#8 ∧ decSymbol 0xF0#8 = some 0xF#4 ∧ decSymbol 0x4A#8 = none
    ∧ decSymbol 0x00#8 = none ∧ decSymbol 0xFF#8 = none := by decide

/-- V-ENC1: the pure operations in DOWN. -/
theorem test_pure_in_down :
    (after (exec (.enc 0x04#8) { live [] with life := .down })).map (·.result) = some (.byte 0x4B#8) ∧
    (after (exec (.dec 0x4B#8) { live [] with life := .down })).map (·.result) = some (.nibble 0x4#4) ∧
    (after (exec (.crc8 [0x41#8]) { live [] with life := .down })).map (·.result) = some (.byte 0x18#8) := by decide

/-- L2.3. -/
theorem test_crc_step : crcStep 0x00#8 0x01#8 = 0x5E#8 ∧ crcStep 0x00#8 0x80#8 = 0x8C#8 ∧ crcStep 0xFF#8 0x00#8 = 0x35#8 ∧ crcStep 0x5A#8 0xA5#8 = 0x35#8 := by decide

/-- L2.3, the last row among them. -/
theorem test_crc8 : crcOf [] = 0x00#8 ∧ crcOf [0x41#8, 0x42#8] = 0xA5#8 ∧
    crcOf [0x31#8, 0x32#8, 0x33#8, 0x34#8, 0x35#8, 0x36#8, 0x37#8, 0x38#8, 0x39#8] = 0xA1#8 := by decide +kernel

/-- L2.4: [41, 42] and the empty payload. -/
theorem test_send :
    (after (exec (.send [0x41#8, 0x42#8]) (live []))).map (·.tx) = some [0x02#8, 0x4B#8, 0x1E#8, 0x4B#8, 0x2D#8, 0x03#8, 0xA5#8, 0x5A#8] ∧
    (after (exec (.send []) (live []))).map (·.tx) = some [0x02#8, 0x03#8, 0x0F#8, 0x0F#8] := by decide +kernel

/-- L2.4, the last two rows: no sink, and UNINIT. -/
theorem test_send_silent :
    (after (exec (.send [0x41#8, 0x42#8]) { live [] with txAttached := false })).map (fun t => (t.tx, t.fault)) = some ([], none) ∧
    (after (exec (.send [0x41#8]) State.reset)).map (fun t => (t.tx, t.fault)) = some ([], some .notLive) := by decide

/-- V-RX1's start. -/
def frameRx1 : State := live [0x02#8, 0x4B#8, 0x1E#8, 0x4B#8, 0x2D#8, 0x03#8, 0xA5#8, 0x5A#8]

/-- V-RX1. -/
theorem test_poll_frame :
    (after (exec .poll frameRx1)).map (fun t => (t.result, t.ready, t.pos, t.errCnt, t.tStart)) = some (.flag true, true, 2#8, 0, 0x64) ∧
    (after (exec .poll frameRx1)).map (fun t => (t.buf, t.rx)) = some ([(0, 0x41#8), (1, 0x42#8)], []) := by decide +kernel

/-- V-RX6: an invalid symbol, then noise and an end marker in Idle. -/
theorem test_poll_corrupt :
    (after (exec .poll (live [0x02#8, 0x4B#8, 0x1F#8, 0x4B#8, 0x2D#8, 0x03#8, 0xA5#8, 0x5A#8]))).map
      (fun t => (t.result, t.started, t.etxSeen, t.errCnt, t.tStart)) = some (.flag false, false, true, 1, 0) := by decide +kernel

/-- V-RX10: an end marker between the two symbols of a pair. -/
theorem test_symbol_mismatch :
    (after (exec .wSym1 { open4 [] with hiPend := true, hiNib := 0x4#4, etxSeen := true })).map (fun t => (t.started, t.errCnt)) = some (false, 1) := by decide

/-- V-RX11: the same shape with the checksum of the empty payload. -/
theorem test_symbol_match :
    (after (exec .wSym0 { open4 [] with hiPend := true, etxSeen := true })).map (fun t => (t.result, t.ready, t.pos)) =
      some (.status .completed, true, 0#8) := by decide

/-- 43_receive_fsm.md R149's example, and R150's. -/
theorem test_symbol_append_overflow :
    (after (exec .wSym1 { open4 [] with hiPend := true, hiNib := 0x4#4 })).map (fun t => (t.pos, t.buf)) = some (1#8, [(0, 0x41#8)]) ∧
    (after (exec .wSym1 { open4 [] with hiPend := true, hiNib := 0x4#4, pos := 4#8 })).map (fun t => (t.started, t.errCnt)) = some (false, 1) := by decide

/-- 43_receive_fsm.md R141's example: a start marker inside a frame at time 500. -/
theorem test_start_marker :
    (after (exec .wStx { open4 [] with pos := 3#8, hiPend := true, time := some 500 })).map (fun t => (t.pos, t.hiPend, t.tStart, t.errCnt)) =
      some (0#8, false, 500, 0) := by decide

/-- 43_receive_fsm.md R142's example. -/
theorem test_end_marker :
    (after (exec .wEtx { open4 [] with pos := 1#8 })).map (fun t => (rxPhase t, t.pos)) = some (.awaitingChecksum, 1#8) := by decide

/-- L2.7: the counter wraps. -/
theorem test_error_wrap :
    (after (exec (.wBad 0x1F#8) { open4 [] with cfg := { defaultConfig with errW := 2 }, errCnt := 3 })).map (·.errCnt) = some 0 := by decide

/-- 43_receive_fsm.md R143's example. -/
theorem test_noise : (after (exec (.wNoise 0x4B#8) (live []))).map (fun t => (t.result, rxPhase t, t.errCnt)) = some (.status .continued, .idle, 0) := by decide

/-- V-POLL4. -/
theorem test_poll_ready : (after (exec .poll { complete with rx := [0x02#8] })).map (fun t => (t.fault, t.rx)) = some (some .pollReady, [0x02#8]) := by decide

/-- V-RST1. -/
theorem test_reset : (after (exec .reset complete)).map (fun t => (rxPhase t, t.ready, t.errCnt)) = some (.idle, false, 0) := by decide

/-- V-INIT1, V-INIT2. -/
theorem test_init :
    (after (exec (.init 0x04#8) State.reset)).map (fun t => (t.life, t.cap, t.errCnt, rxPhase t)) = some (.live, 0x04#8, 0, .idle) ∧
    (after (exec (.init 0x04#8) (live []))).map (·.fault) = some (some .reinit) := by decide

/-- V-SHUT1, V-SHUT2. -/
theorem test_shutdown :
    (after (exec .shutdown (live []))).map (·.life) = some .down ∧
    (after (exec .shutdown { live [] with life := .down })).map (·.fault) = some (some .notLive) := by decide

/-- V-RD1. -/
theorem test_reads_complete :
    ([.rdReady, .rdLen, .rdData 0x00#8, .rdData 0x01#8, .rdData 0x02#8] : List Instr).map (fun i => (after (exec i complete)).map (·.result)) =
      [some (.flag true), some (.byte 0x02#8), some (.byte 0x41#8), some (.byte 0x42#8), some .absent] := by decide

/-- V-RD2, V-RD3, V-RD4. -/
theorem test_reads_otherwise :
    ([.rdLen, .rdData 0x00#8, .rdTstart, .rdStarted, .rdErr] : List Instr).map (fun i => (after (exec i (live []))).map (·.result)) =
      [some .absent, some .absent, some .absent, some (.flag false), some (.count 0)] ∧
    ([.rdStarted, .rdTstart, .rdLen] : List Instr).map (fun i => (after (exec i (open4 []))).map (·.result)) =
      [some (.flag true), some (.stamp 7), some .absent] ∧
    (after (exec .rdErr { live [] with life := .down })).map (·.fault) = some (some .notLive) := by decide

/-- V-CMD1, and the operand byte of 40_symbol_codec.md R110. -/
theorem test_bad_commands :
    ([.reservedF0, .reserved00, .illegalLowNibble 0x4#4 0x1#4, .enc 0x10#8] : List Instr).map (fun i => (after (exec i (live []))).map (·.fault)) =
      [some (some .badCmd), some (some .badCmd), some (some .badCmd), some (some .badCmd)] := by decide

/-- A transport that claims bytes it does not have (60_exceptions.md R206, F_TRANSPORT), and PROCESS_BYTE and CRC8_STEP called by themselves. -/
theorem test_transport_and_internals :
    (after (exec .poll { live [] with rxClaim := some 1 })).map (·.fault) = some (some .transport) ∧
    (after (exec (.processByte 0x02#8) (live []))).map (fun t => (t.started, t.tStart)) = some (true, 0x64) ∧
    (after (exec (.crc8Step 0x00#8 0x41#8) (live []))).map (·.result) = some (.byte 0x18#8) := by decide

/-! ## Witnesses: each statement's hypotheses are met together -/

theorem witness_InitEntersIdle : State.reset.life = .uninit ∧ (live []).life ≠ .uninit ∧ (live []).fault = none ∧
    State.reset.fault = none := by decide

theorem witness_CreationAndInitValues : State.reset.life = .uninit ∧ State.reset.fault = none := by decide

theorem witness_ShutdownReleasesBuffer : complete.life = .live ∧ State.reset.life ≠ .live ∧ State.reset.fault = none := by decide

theorem witness_ResetForcesIdle : complete.life = .live ∧ complete.fault = none ∧ State.reset.life ≠ .live ∧ State.reset.fault = none
    ∧ (after (exec .reset complete)).isSome = true := by decide

theorem witness_LifecycleGating : State.reset.fault = none ∧ State.reset.life ≠ .live ∧ State.reset.life = .uninit ∧
    (live []).fault = none ∧ (live []).life = .live ∧ (live []).life ≠ .uninit ∧ (0x0F#8 : Byte).toNat ≤ 15 ∧ payload255.length ≤ 255 := by decide +kernel

theorem witness_LifeChanges : (after (exec (.init 0x04#8) State.reset)).map (·.life) = some .live ∧
    (after (exec .shutdown (live []))).map (·.life) = some .down ∧
    (after (step { State.reset with script := [.command [0x10#8, 0x04#8]] })).map (·.life) = some .live ∧
    (after (step { live [] with script := [.command [0x20#8]] })).map (·.life) = some .down := by decide

theorem witness_CapacityFixedOverRuns : ∃ t, Reaches (live []) t ∧ (live []).life ≠ .uninit := ⟨live [], .refl _, by decide⟩

theorem witness_IllegalCommandWords : State.reset.fault = none ∧ ((0x41#8 : Byte) &&& 0x0F#8 ≠ 0#8) ∧ (0x00#8 : Byte) >>> 4 = 0x0#8 ∧
    (0xF0#8 : Byte) >>> 4 = 0xF#8 := by decide

theorem witness_FaultIsSticky : ({ live [] with fault := some Fault.reinit } : State).fault = some .reinit ∧
    (after (exec .poll { live [] with fault := some Fault.reinit })).isSome = true := by decide

theorem witness_EncWritesSymbol : (0x0F#8 : Byte).toNat ≤ 15 ∧ 15 < (0x10#8 : Byte).toNat ∧ (live []).fault = none := by decide

theorem witness_DecValidatesSymbol : (0x4B#8 : Byte) >>> 4 = ((0x4B#8 &&& 0x0F#8) ^^^ 0x0F#8) ∧
    (0x4A#8 : Byte) >>> 4 ≠ ((0x4A#8 &&& 0x0F#8) ^^^ 0x0F#8) := by decide

theorem witness_SymbolRoundTrip : decSymbol 0x4B#8 = some 0x4#4 := by decide

theorem witness_Crc8FoldsBytes : payload255.length ≤ 255 ∧ 255 < payload256.length ∧ (live []).fault = none ∧
    ([0x41#8, 0x42#8] : List Byte) = [0x41#8] ++ [0x42#8] := by decide +kernel

theorem witness_CrcCatchesOneChangedByte : (0x41#8 : Byte) ≠ 0x42#8 := by decide

theorem witness_SendWritesFrame : (live []).life = .live ∧ payload255.length ≤ 255 ∧ (live []).txAttached = true ∧
    ({ live [] with txAttached := false } : State).txAttached = false ∧ State.reset.life ≠ .live ∧ State.reset.fault = none ∧
    255 < payload256.length ∧ (live []).fault = none := by decide +kernel

theorem witness_FrameShape : defaultConfig.wf = true := by decide

theorem witness_ProcessByteRunsItsClass : (open4 []).cfg.wf = true := by decide

theorem witness_WireByteClasses : (0x02#8 : Byte) = defaultConfig.stx ∧ (0x03#8 : Byte) = defaultConfig.etx ∧
    (0x4B#8 : Byte) ≠ defaultConfig.stx ∧ (0x4B#8 : Byte) ≠ defaultConfig.etx ∧ symbolValid 0x4B#8 = true ∧
    (0x1F#8 : Byte) ≠ defaultConfig.stx ∧ (0x1F#8 : Byte) ≠ defaultConfig.etx ∧ symbolValid 0x1F#8 = false := by decide

theorem witness_StartMarkerOpensFrame : (live []).time = some 0x64 := by decide

theorem witness_NoiseIsDiscarded : (live []).started = false ∧ (0x4B#8 : Byte) ≠ (live []).cfg.stx ∧ (0x4B#8 : Byte) ≠ (live []).cfg.etx := by decide

theorem witness_InvalidSymbolResets : (open4 []).started = true ∧ (0x1F#8 : Byte) ≠ (open4 []).cfg.stx ∧ (0x1F#8 : Byte) ≠ (open4 []).cfg.etx ∧
    symbolValid 0x1F#8 = false := by decide

theorem witness_WireRowsOutside : (live []).started = false ∧ (Instr.wBad 0x1F#8).wellFormed (live []).cfg = true ∧ (live []).cfg.wf = true ∧
    (open4 []).started = true ∧ (Instr.wSym4, (0x4#4 : Nibble)) ∈ symbolRows := by decide

theorem witness_FirstSymbolIsHeld : (Instr.wSym4, (0x4#4 : Nibble)) ∈ symbolRows ∧ (open4 []).started = true ∧ (open4 []).hiPend = false := by decide

/-- A frame with one byte held, and room. -/
def pair : State := { open4 [] with hiPend := true, hiNib := 0x4#4 }

theorem witness_SecondSymbolAppends : (Instr.wSym1, (0x1#4 : Nibble)) ∈ symbolRows ∧ pair.started = true ∧ pair.hiPend = true ∧ pair.etxSeen = false ∧
    pair.pos < pair.cap ∧ ({ pair with pos := 3#8 } : State).pos < pair.cap := by decide

theorem witness_SecondSymbolOverflows : (Instr.wSymF, (0xF#4 : Nibble)) ∈ symbolRows ∧ pair.started = true ∧ pair.hiPend = true ∧ pair.etxSeen = false ∧
    ({ pair with pos := 4#8 } : State).pos = pair.cap ∧ ({ pair with cap := 0#8 } : State).pos = 0#8 := by decide

theorem witness_ChecksumMatchCompletes : ∃ s : State, (Instr.wSym0, (0x0#4 : Nibble)) ∈ symbolRows ∧ s.started = true ∧ s.hiPend = true ∧
    s.etxSeen = true ∧ (s.hiNib.setWidth 8 <<< 4) ||| (0x0#4 : Nibble).setWidth 8 = crcOf ((List.range s.pos.toNat).map (bufRead s)) :=
  ⟨{ pair with hiNib := 0#4, etxSeen := true }, by decide⟩

theorem witness_ChecksumMismatchResets : ∃ s : State, (Instr.wSym1, (0x1#4 : Nibble)) ∈ symbolRows ∧ s.started = true ∧ s.hiPend = true ∧
    s.etxSeen = true ∧ (s.hiNib.setWidth 8 <<< 4) ||| (0x1#4 : Nibble).setWidth 8 ≠ crcOf ((List.range s.pos.toNat).map (bufRead s)) :=
  ⟨{ pair with etxSeen := true }, by decide⟩

theorem witness_ReceiveTransitions : (live []).ready = false ∧ (live []).started = false ∧ (open4 []).ready = false ∧ (open4 []).started = true ∧
    (open4 []).hiPend = false ∧ pair.ready = false ∧ pair.started = true ∧ pair.hiPend = true ∧ pair.etxSeen = false ∧
    ({ pair with etxSeen := true } : State).etxSeen = true := by decide

theorem witness_PollWhileReadyFaults : complete.life = .live ∧ complete.ready = true ∧ complete.fault = none := by decide

theorem witness_PollWithNothingIsNoOp : (live []).life = .live ∧ (live []).ready = false ∧ (live []).quiet = true ∧ rxAvailable (live []) ≤ 0 ∧
    ({ live [0x02#8] with rxAttached := false } : State).rxAttached = false ∧ rxAvailable { live [0x02#8] with rxClaim := some (-1) } ≤ 0 := by decide

theorem witness_PollFrame : (live [0x02#8]).life = .live ∧ (live [0x02#8]).ready = false ∧ (live [0x02#8]).quiet = true := by decide

theorem witness_PollReturnsTrueExactlyOnCompletion : (live [0x02#8, 0x03#8, 0x0F#8, 0x0F#8]).listens = true ∧ (live []).listens = true ∧ (live []).cfg.wf = true := by decide

theorem witness_PollOnLyingTransport : ∃ s : State, s.life = .live ∧ s.ready = false ∧ s.quiet = true ∧ s.fault = none ∧ s.rxAttached = true ∧
    s.rxClaim = some 1 ∧ (0 : Int) < 1 := ⟨{ live [0x02#8] with rxClaim := some 1 }, by decide⟩

theorem witness_PollRunsRows : (live [0x02#8, 0x4B#8]).listens = true ∧ (live [0x02#8, 0x4B#8]).rx = 0x02#8 :: [0x4B#8] ∧
    (after (exec (classify defaultConfig false 0x02#8) (live [0x4B#8]))).map (·.result) = some (.status .continued) ∧
    (after (exec (classify defaultConfig true 0x0F#8) { open4 [] with hiPend := true, etxSeen := true })).map (·.result) = some (.status .completed) ∧
    ({ open4 [0x0F#8] with hiPend := true, etxSeen := true } : State).listens = true := by decide

theorem witness_PollResumes : (live [0x02#8, 0x03#8, 0x0F#8, 0x0F#8]).listens = true ∧
    (live [0x02#8, 0x03#8, 0x0F#8, 0x0F#8]).rx = [0x02#8, 0x03#8] ++ [0x0F#8, 0x0F#8] ∧
    (after (exec .poll (live [0x02#8, 0x03#8]))).map (·.result) = some (.flag false) := by decide

theorem witness_ArrivalDuringPoll : ∃ s : State, s.life = .live ∧ s.ready = false ∧ s.script = .during [.arrive [0x02#8]] :: [.env .loop] ∧
    ({ s with script := [.env .loop] } : State).quiet = true :=
  ⟨{ live [] with script := [.during [.arrive [0x02#8]], .env .loop] }, by decide⟩

/-- The three ways a POLL goes on after the host steps that interleave: nothing there, a broken claim, and a byte of either result. -/
theorem witness_PollInterleaves : (scripted [.during [.time 10]]).life = .live ∧ (scripted [.during [.time 10]]).ready = false ∧
    (scripted [.during [.time 10]]).fault = none ∧ (after (step (scripted [.during [.time 10]]))).map rxAvailable = some 0 ∧
    (after (step (scripted [.during [.claim (some 1)]]))).map (fun u => (rxAvailable u, u.rx)) = some (1, []) ∧
    (after (step (scripted [.during [.arrive [0x02#8]]]))).map (fun u => (rxAvailable u, u.rx)) = some (1, [0x02#8]) ∧
    (after (exec (.processByte 0x02#8) (live []))).map (·.result) = some (.status .continued) ∧
    (after (exec (.processByte 0x0F#8) { open4 [] with hiPend := true, etxSeen := true })).map (·.result) = some (.status .completed) := by decide

/-- A delivered packet, and a frame left open (V-RX21). -/
theorem witness_PollHolds : frameRx1.listens = true ∧ frameRx1.started = false ∧ (after (exec .poll frameRx1)).map (·.result) = some (.flag true) ∧
    (live [0x02#8, 0x4B#8, 0x1E#8, 0x4B#8]).listens = true ∧
    (after (exec .poll (live [0x02#8, 0x4B#8, 0x1E#8, 0x4B#8]))).map (fun t => (t.result, t.started)) = some (.flag false, true) := by decide +kernel

/-- A payload as long as the capacity, and one byte after the frame. -/
theorem witness_FrameRoundTrip : ∃ s : State, s.listens = true ∧ s.cfg.wf = true ∧ ([1#8, 2#8, 3#8, 4#8] : List Byte).length ≤ s.cap.toNat ∧
    s.rx = frameOf s.cfg [1#8, 2#8, 3#8, 4#8] ++ [0x02#8] ∧ s.time = some 0x64 :=
  ⟨live (frameOf defaultConfig [1#8, 2#8, 3#8, 4#8] ++ [0x02#8]), by decide +kernel⟩

/-- A payload one byte longer than the capacity (V-RX5). -/
theorem witness_OverflowingFrame : ∃ s : State, s.listens = true ∧ s.cfg.wf = true ∧ s.cap.toNat < ([1#8, 2#8, 3#8, 4#8, 5#8] : List Byte).length ∧
    s.rx = frameOf s.cfg [1#8, 2#8, 3#8, 4#8, 5#8] := ⟨live (frameOf defaultConfig [1#8, 2#8, 3#8, 4#8, 5#8]), by decide +kernel⟩

/-- V-RX7: bit 7 of the last byte of the frame of [41, 42]. -/
theorem witness_OneCorruptBit : ∃ s : State, s.listens = true ∧ s.cfg.stx = 0x02#8 ∧ s.cfg.etx = 0x03#8 ∧ ([0x41#8, 0x42#8] : List Byte).length ≤ s.cap.toNat ∧
    (0 : Nat) < 7 ∧ 7 < (frameOf s.cfg [0x41#8, 0x42#8]).length ∧ (7 : Nat) ≠ 2 * ([0x41#8, 0x42#8] : List Byte).length + 1 ∧
    s.rx = (frameOf s.cfg [0x41#8, 0x42#8]).set 7 ((frameOf s.cfg [0x41#8, 0x42#8]).getD 7 0#8 ^^^ (1#8 <<< 7)) :=
  ⟨live [0x02#8, 0x4B#8, 0x1E#8, 0x4B#8, 0x2D#8, 0x03#8, 0xA5#8, 0xDA#8], by decide +kernel⟩

theorem witness_StatusReads : (live []).life = .live ∧ State.reset.life ≠ .live ∧ State.reset.fault = none := by decide

theorem witness_PayloadReads : complete.life = .live ∧ complete.ready = true ∧ (0x01#8 : Byte) < complete.pos ∧ complete.pos ≤ 0x02#8 ∧
    (live []).ready = false ∧ State.reset.life ≠ .live ∧ State.reset.fault = none := by decide

theorem witness_StartTimeRead : (open4 []).life = .live ∧ (open4 []).started = true ∧ (live []).life = .live ∧ (live []).started = false ∧
    State.reset.life ≠ .live ∧ State.reset.fault = none := by decide

theorem witness_ReadyProtocol : Instr.poll.space = .command ∧ (live [0x02#8, 0x03#8, 0x0F#8, 0x0F#8]).ready = false ∧
    (after (exec .poll (live [0x02#8, 0x03#8, 0x0F#8, 0x0F#8]))).map (·.ready) = some true ∧
    complete.ready = true ∧ (after (exec .reset complete)).map (·.ready) = some false := by decide

theorem witness_ErrorCounterWriters : Instr.poll.space = .command ∧ (live [0x02#8, 0x1F#8]).errCnt = 0 ∧
    (after (exec .poll (live [0x02#8, 0x1F#8]))).map (·.errCnt) = some 1 := by decide

theorem witness_DecodeEncode : defaultConfig.wf = true ∧ (Instr.send [0x41#8]).wellFormed defaultConfig = true ∧
    encode defaultConfig (.send [0x41#8]) = some [0x50#8, 0x01#8, 0x41#8] ∧ (Instr.wBad 0x1F#8).wellFormed defaultConfig = true ∧
    encode defaultConfig (.wBad 0x1F#8) = some [0x1F#8] := by decide

theorem witness_EncodeDecodeCommand : decodeCommand [0xB0#8, 0xFF#8, 0x90#8] = .ok (.rdData 0xFF#8) [0x90#8] := by decide

theorem witness_StepRuns : ∃ s : State, s.fault = none ∧ s.script = .command [0x40#8, 0x90#8] :: [.call .rdErr] ∧
    decode s.cfg .command [0x40#8, 0x90#8] = .ok .poll [0x90#8] :=
  ⟨{ live [] with script := [.command [0x40#8, 0x90#8], .call .rdErr] }, by decide⟩

theorem witness_StepCalls : ∃ s : State, s.fault = none ∧ s.script = .call .rdErr :: [] ∧ Instr.rdErr.space = .command :=
  ⟨{ live [] with script := [.call .rdErr] }, by decide⟩

/-- A host call of an internal operation or of a wire-byte row, a truncated command, an empty chunk, an empty script. -/
theorem witness_StepRefuses : (scripted [.call (.processByte 0x02#8)]).fault = none ∧ (Instr.processByte 0x02#8).space ≠ .command ∧
    Instr.wStx.space ≠ .command ∧ (scripted [.command [0x50#8, 0x02#8, 0x41#8]]).script = .command [0x50#8, 0x02#8, 0x41#8] :: [] ∧
    decode (live []).cfg .command [0x50#8, 0x02#8, 0x41#8] = .missingOperand 0x5#4 ∧
    (scripted [.command []]).script = .command [] :: [] ∧ (live []).script = [] ∧ (live []).fault = none := by decide

theorem witness_HostSteps : (scripted []).fault = none ∧
    (scripted [.env (.arrive [0x02#8])]).script = .env (.arrive [0x02#8]) :: [] ∧ (scripted [.env (.time 10)]).script = .env (.time 10) :: [] ∧
    (scripted [.env .loop]).script = .env .loop :: [] ∧ (scripted [.env .attachSink]).script = .env .attachSink :: [] ∧
    (scripted [.env .detachSink]).script = .env .detachSink :: [] ∧ (scripted [.env .attachSource]).script = .env .attachSource :: [] ∧
    (scripted [.env .detachSource]).script = .env .detachSource :: [] ∧ (scripted [.env (.claim (some 0))]).script = .env (.claim (some 0)) :: [] ∧
    (scripted [.during []]).script = .during [] :: [] ∧ (scripted [.during [.loop]]).script = .during [.loop] :: [] := by decide

/-- Attaching the sink and the source (20_memory.md R71, R72). -/
theorem test_attach :
    (after (step { State.reset with script := [.env .attachSink] })).map (fun t => (t.txAttached, t.rxAttached)) = some (true, false) ∧
    (after (step { State.reset with script := [.env .attachSource] })).map (fun t => (t.txAttached, t.rxAttached)) = some (false, true) := by decide

/-- A created instance whose host is about to initialise it. -/
def aboutToInit : State := { State.reset with script := [.command [0x10#8, 0x04#8]] }

theorem witness_InvariantsKept : ∃ s t : State, s.Inv ∧ step s = .next t :=
  ⟨aboutToInit, _, ⟨by decide, by decide, by decide, by decide, (fun h => by cases h), by decide, by decide, by decide, by decide, by decide, by decide⟩, rfl⟩

/-- Two Idle states that differ in `etx_seen` and in a buffer byte. -/
theorem witness_StepKeepsSameToHost : SameToHost (live []) { live [] with etxSeen := true, buf := [(0, 0x41#8)] } := by
  constructor <;> first | rfl | exact fun h => by cases h

theorem witness_IdleStates : (live []).life = .live ∧ (live []).started = false ∧ (live []).ready = false := by decide

end Sys2Proof.Tests
end

section
/-! SUPPORT. The encodings of 30_encoding.md: the class of a received byte (R85) and the illegal command words (R90). -/

namespace Sys2Proof.Machine

/-! ## The two nibbles of a byte, and the validity test -/

@[simp] theorem hiNibble_toNat (b : Byte) : (hiNibble b).toNat = b.toNat / 16 := by
  have hb : b.toNat < 256 := b.isLt
  simp only [hiNibble, BitVec.extractLsb'_toNat, Nat.shiftRight_eq_div_pow]
  omega

@[simp] theorem loNibble_toNat (b : Byte) : (loNibble b).toNat = b.toNat % 16 := by
  simp [loNibble]

/-- `b[3:0]` as R90 tests it, by a mask. -/
theorem loNibble_eq_zero_iff (b : Byte) : loNibble b = 0#4 ↔ b &&& 0x0F#8 = 0#8 := by
  have hmask : (b &&& 0x0F#8).toNat = b.toNat % 16 := Nat.and_two_pow_sub_one_eq_mod b.toNat 4
  simp [← BitVec.toNat_inj, hmask]

/-- `b[7:4]` as R90 tests it, by a shift. -/
theorem hiNibble_eq_iff (b : Byte) (n : Nibble) : hiNibble b = n ↔ b >>> 4 = n.setWidth 8 := by
  have hn : n.toNat < 16 := n.isLt
  simp only [← BitVec.toNat_inj, hiNibble_toNat, BitVec.toNat_ushiftRight, Nat.shiftRight_eq_div_pow, BitVec.toNat_setWidth]
  omega

theorem decSymbol_of_valid (b : Byte) (h : symbolValid b = true) : decSymbol b = some (hiNibble b) := if_pos h

theorem decSymbol_of_invalid (b : Byte) (h : symbolValid b = false) : decSymbol b = none := by
  simp [decSymbol, h]

/-! ## The class of a received byte, one lemma per row of R85's table -/

/-- The symbol row of a nibble stands in the table of R80 with that nibble. -/
theorem symbolRow_mem (n : Nibble) : (symbolRow n, n) ∈ symbolRows := by
  revert n
  decide

section
variable (c : Config) (started : Bool) (b : Byte)

@[simp] theorem classify_stx : classify c started c.stx = .wStx := if_pos rfl

theorem classify_etx (h : c.etx ≠ c.stx) : classify c started c.etx = .wEtx := by
  simp [classify, h]

theorem classify_noise (hs : b ≠ c.stx) (he : b ≠ c.etx) : classify c false b = .wNoise b := by
  simp [classify, hs, he]

theorem classify_valid (hs : b ≠ c.stx) (he : b ≠ c.etx) (h : symbolValid b = true) :
    classify c true b = symbolRow (hiNibble b) := by
  simp [classify, hs, he, decSymbol_of_valid b h]

theorem classify_invalid (hs : b ≠ c.stx) (he : b ≠ c.etx) (h : symbolValid b = false) :
    classify c true b = .wBad b := by
  simp [classify, hs, he, decSymbol_of_invalid b h]

end

/-- Settles O19: one clause per row of R85's table, each by the lemma of its row. -/
theorem wireByteClasses : Obligations.WireByteClasses := by
  intro c started b
  refine ⟨?stx, ?etx, ?noise, ?valid, ?invalid⟩
  case stx =>
    rintro rfl
    exact classify_stx c started
  case etx =>
    rintro hs rfl
    exact classify_etx c started hs
  case noise =>
    rintro hs he rfl
    exact classify_noise c b hs he
  case valid =>
    rintro hs he rfl hv
    exact ⟨(symbolRow (hiNibble b), hiNibble b), symbolRow_mem _, classify_valid c b hs he hv, rfl⟩
  case invalid =>
    rintro hs he rfl hv
    exact classify_invalid c b hs he hv

/-! ## The illegal command words -/

/-- The three refused forms of a command word (R90). -/
def IllegalWord (i : Instr) : Prop := i = .reserved00 ∨ i = .reservedF0 ∨ ∃ op low, i = .illegalLowNibble op low

/-- Every refused form takes `F_BAD_CMD` and writes nothing else. -/
theorem exec_illegalWord (i : Instr) (s : State) (hi : IllegalWord i) (hf : s.fault = none) :
    exec i s = .next { s with fault := some .badCmd } := by
  have hraise : exec i s = .next (raiseFault .badCmd s) := by
    obtain rfl | rfl | ⟨op, low, rfl⟩ := hi <;> rfl
  rw [hraise, raiseFault_eq _ s hf]

/-- A nonzero low nibble is refused whatever the operation code. -/
theorem decodeCommand_low_ne (w : Byte) (rest : List Byte) (h : loNibble w ≠ 0#4) :
    decodeCommand (w :: rest) = .ok (.illegalLowNibble (hiNibble w) (loNibble w)) rest := if_neg h

/-- With a zero low nibble the operation code alone selects the row of R89. -/
theorem decodeCommand_low_eq (w : Byte) (rest : List Byte) (h : loNibble w = 0#4) :
    decodeCommand (w :: rest) = decodeOp (hiNibble w) rest := if_pos h

/-- A command word that selects no operation decodes to a refused form, and takes no operand. -/
theorem decodeCommand_illegal (w : Byte) (rest : List Byte) (h : loNibble w ≠ 0#4 ∨ hiNibble w = 0x0#4 ∨ hiNibble w = 0xF#4) :
    ∃ i, decodeCommand (w :: rest) = .ok i rest ∧ IllegalWord i := by
  by_cases hlow : loNibble w = 0#4
  · rw [decodeCommand_low_eq w rest hlow]
    obtain hne | hop | hop := h
    · exact absurd hlow hne
    · exact ⟨.reserved00, by rw [hop]; rfl, .inl rfl⟩
    · exact ⟨.reservedF0, by rw [hop]; rfl, .inr (.inl rfl)⟩
  · exact ⟨_, decodeCommand_low_ne w rest hlow, .inr (.inr ⟨_, _, rfl⟩)⟩

/-- Settles O8: each refused form raises the fault, and R90's tests on the word are tests on its two nibbles. -/
theorem illegalCommandWordsFault : Obligations.IllegalCommandWordsFault := by
  refine ⟨fun s hf => ⟨?_, ?_, fun op low => ?_⟩, fun w rest h => ?_⟩
  · exact exec_illegalWord _ s (.inl rfl) hf
  · exact exec_illegalWord _ s (.inr (.inl rfl)) hf
  · exact exec_illegalWord _ s (.inr (.inr ⟨op, low, rfl⟩)) hf
  · apply decodeCommand_illegal
    rwa [Ne, loNibble_eq_zero_iff, hiNibble_eq_iff, hiNibble_eq_iff]

end Sys2Proof.Machine
end

section
/-! SUPPORT. ENC and DEC as host commands (40_symbol_codec.md R110, R111). -/

namespace Sys2Proof.Machine

/-! ## ENC -/

/-- R88's test that bits 7..4 are zero is the bound of R110. -/
theorem nibbleOperandOk_iff (n : Byte) : nibbleOperandOk n = true ↔ n.toNat ≤ 15 := by
  simp only [nibbleOperandOk, beq_iff_eq, ← BitVec.toNat_inj, hiNibble_toNat, BitVec.toNat_ofNat]
  omega

/-- A byte that fits a nibble loses nothing when it is read as one. -/
theorem setWidth_loNibble (n : Byte) (h : n.toNat ≤ 15) : (loNibble n).setWidth 8 = n := by
  apply BitVec.eq_of_toNat_eq
  rw [BitVec.toNat_setWidth, loNibble_toNat]
  omega

/-- The model's nibble formula is R110's formula on the operand byte. -/
theorem encSymbol_loNibble (n : Byte) (h : n.toNat ≤ 15) : encSymbol (loNibble n) = (n <<< 4) ||| (n ^^^ 0x0F#8) := by
  simp only [encSymbol, BitVec.setWidth_xor, setWidth_loNibble n h]
  rfl

theorem exec_enc_of_nibble (n : Byte) (s : State) (h : n.toNat ≤ 15) :
    exec (.enc n) s = .next (setResult (.byte (encSymbol (loNibble n))) s) :=
  congrArg Host.Outcome.next (if_pos ((nibbleOperandOk_iff n).mpr h))

theorem exec_enc_of_not_nibble (n : Byte) (s : State) (h : 15 < n.toNat) :
    exec (.enc n) s = .next (raiseFault .badCmd s) :=
  congrArg Host.Outcome.next (if_neg (mt (nibbleOperandOk_iff n).mp (Nat.not_le.mpr h)))

theorem decodeCommand_enc (n : Byte) (rest : List Byte) : decodeCommand (0x60#8 :: n :: rest) = .ok (.enc n) rest :=
  decodeCommand_low_eq 0x60#8 (n :: rest) rfl

/-- Settles O10: the operand check is R110's bound, and within it the two formulas agree. -/
theorem encWritesSymbol : Obligations.EncWritesSymbol := by
  intro n s
  refine ⟨?symbol, ?refused, decodeCommand_enc n⟩
  case symbol =>
    intro h
    rw [exec_enc_of_nibble n s h, encSymbol_loNibble n h]
    rfl
  case refused =>
    intro h hf
    rw [exec_enc_of_not_nibble n s h, raiseFault_eq _ s hf]

/-! ## DEC -/

/-- The model's Boolean test is the equation of R111. -/
theorem symbolValid_iff (b : Byte) : symbolValid b = true ↔ b >>> 4 = ((b &&& 0x0F#8) ^^^ 0x0F#8) := beq_iff_eq

theorem exec_dec_of_valid (b : Byte) (s : State) (h : symbolValid b = true) :
    exec (.dec b) s = .next (setResult (.nibble (hiNibble b)) s) := by
  simp only [exec, execDec, decSymbol_of_valid b h]

/-- "`Invalid` is a result, not a fault" (R111). -/
theorem exec_dec_of_invalid (b : Byte) (s : State) (h : symbolValid b = false) :
    exec (.dec b) s = .next (setResult .invalid s) := by
  simp only [exec, execDec, decSymbol_of_invalid b h]

theorem decodeCommand_dec (b : Byte) (rest : List Byte) : decodeCommand (0x70#8 :: b :: rest) = .ok (.dec b) rest :=
  decodeCommand_low_eq 0x70#8 (b :: rest) rfl

/-- Settles O11: a case per answer of the validity test; the nibble of a valid symbol is its high one. -/
theorem decValidatesSymbol : Obligations.DecValidatesSymbol := by
  intro b s
  refine ⟨?valid, ?invalid, decodeCommand_dec b⟩
  case valid =>
    intro h
    exact ⟨hiNibble b, hiNibble_toNat b, exec_dec_of_valid b s ((symbolValid_iff b).mpr h)⟩
  case invalid =>
    intro h
    have hinv : symbolValid b = false := Bool.eq_false_of_not_eq_true (mt (symbolValid_iff b).mp h)
    exact exec_dec_of_invalid b s hinv

end Sys2Proof.Machine
end

section
/-! SUPPORT. The `bytes` operand of SEND and CRC8 (30_encoding.md R88): its length check, and reading back what was written. -/

namespace Sys2Proof.Machine

/-- R88's check is the bound on the length. -/
theorem bytesOperandOk_iff (xs : List Byte) : bytesOperandOk xs = true ↔ xs.length ≤ 255 := decide_eq_true_iff

/-- The length byte of an operand that fits is read back as its length. -/
theorem lengthByte_toNat (xs : List Byte) (h : xs.length ≤ 255) : (BitVec.ofNat 8 xs.length).toNat = xs.length :=
  Nat.mod_eq_of_lt (by omega)

/-- An operand that fits is read back whole, and nothing after it is taken. -/
theorem takeBytes_putBytes (xs rest : List Byte) (h : xs.length ≤ 255) : takeBytes (putBytes xs ++ rest) = some (xs, rest) := by
  simp [putBytes, takeBytes, lengthByte_toNat xs h]

theorem withBytes_putBytes (op : Nibble) (f : List Byte → Instr) (xs rest : List Byte) (h : xs.length ≤ 255) :
    withBytes op (putBytes xs ++ rest) f = .ok (f xs) rest := by
  simp only [withBytes, takeBytes_putBytes xs rest h]

end Sys2Proof.Machine
end

section
/-! SUPPORT. CRC8_STEP and CRC8 (41_crc8.md R120, R121). -/

namespace Sys2Proof.Machine

/-! ## CRC8_STEP -/

/-- The model's mask selects the test bit of R120, bit 0 of `a ^ w`. -/
theorem and_one_eq_one_iff (x : Byte) : x &&& 1#8 = 1#8 ↔ x.getLsbD 0 = true := by
  have hmask : (x &&& 1#8).toNat = x.toNat % 2 := Nat.and_one_is_mod x.toNat
  simp [← BitVec.toNat_inj, hmask, BitVec.getLsbD, Nat.testBit_zero]

/-- One iteration as R120's pseudocode has it: shift, XOR the polynomial if the test bit was set, shift the working byte. -/
theorem crcIteration_eq (aw : Byte × Byte) :
    crcIteration aw = (if (aw.1 ^^^ aw.2).getLsbD 0 then (aw.1 >>> 1) ^^^ 0x8C#8 else aw.1 >>> 1, aw.2 >>> 1) := by
  by_cases h : (aw.1 ^^^ aw.2).getLsbD 0 = true
  · rw [crcIteration, if_pos ((and_one_eq_one_iff _).mpr h), if_pos h, crcPoly]
  · rw [crcIteration, if_neg (mt (and_one_eq_one_iff _).mp h), if_neg h]

/-- Repeating a function is folding it over any range of that length. -/
theorem repeat_eq_foldl_range {α : Type} (f : α → α) (n : Nat) (a : α) :
    Nat.repeat f n a = (List.range n).foldl (fun x _ => f x) a := by
  induction n with
  | zero => rfl
  | succ n ih => rw [List.range_succ, List.foldl_concat, ← ih, Nat.repeat]

theorem exec_crc8Step (acc b : Byte) (s : State) : exec (.crc8Step acc b) s = .next (setResult (.byte (crcStep acc b)) s) := rfl

/-- Settles O14: the model repeats one iteration eight times, and that iteration is the body of the source's loop. -/
theorem crcStepFoldsOneByte : Obligations.CrcStepFoldsOneByte := by
  intro acc b s
  rw [exec_crc8Step, crcStep, repeat_eq_foldl_range]
  simp only [crcIteration_eq, setResult]

/-! ## CRC8 -/

@[simp] theorem crcOf_nil : crcOf [] = 0#8 := rfl

/-- One more byte is one more CRC8_STEP on the accumulator so far. -/
theorem crcOf_concat (xs : List Byte) (b : Byte) : crcOf (xs ++ [b]) = crcStep (crcOf xs) b := List.foldl_concat ..

theorem exec_crc8_of_fits (xs : List Byte) (s : State) (h : xs.length ≤ 255) :
    exec (.crc8 xs) s = .next (setResult (.byte (crcOf xs)) s) :=
  congrArg Host.Outcome.next (if_pos ((bytesOperandOk_iff xs).mpr h))

theorem exec_crc8_of_too_long (xs : List Byte) (s : State) (h : 255 < xs.length) :
    exec (.crc8 xs) s = .next (raiseFault .tooLong s) :=
  congrArg Host.Outcome.next (if_neg (mt (bytesOperandOk_iff xs).mp (Nat.not_le.mpr h)))

theorem decodeCommand_crc8 (xs rest : List Byte) (h : xs.length ≤ 255) :
    decodeCommand (0x80#8 :: putBytes xs ++ rest) = .ok (.crc8 xs) rest := by
  calc decodeCommand (0x80#8 :: putBytes xs ++ rest)
      = withBytes 0x8#4 (putBytes xs ++ rest) .crc8 := decodeCommand_low_eq 0x80#8 _ rfl
    _ = .ok (.crc8 xs) rest := withBytes_putBytes 0x8#4 .crc8 xs rest h

/-- Settles O15: the value is `crcOf`, which is 0 on no bytes and takes one CRC8_STEP per appended byte; past 255 bytes the operand
check refuses, and up to 255 the length byte gives the operand back. -/
theorem crc8FoldsBytes : Obligations.Crc8FoldsBytes := by
  intro xs s
  refine ⟨?value, ?refused, fun h rest => decodeCommand_crc8 xs rest h⟩
  case value =>
    intro h
    refine ⟨crcOf xs, exec_crc8_of_fits xs s h, ?empty, ?appended⟩
    case empty =>
      rintro rfl
      exact crcOf_nil
    case appended =>
      rintro ys b rfl
      have hys : ys.length ≤ 255 := by
        rw [List.length_append] at h
        omega
      refine ⟨?_, exec_crc8_of_fits ys s hys⟩
      rw [exec_crc8Step, crcOf_concat]
      rfl
  case refused =>
    intro h hf
    rw [exec_crc8_of_too_long xs s h, raiseFault_eq _ s hf]

end Sys2Proof.Machine
end

section
/-! SUPPORT. SEND: the frame it writes (42_frame_encoder.md R130, R131). -/

namespace Sys2Proof.Machine

/-! ## The writes of one frame -/

/-- The payload's symbols follow whatever the TX stream holds, in the order of the payload. -/
theorem foldl_txByte_tx (p : List Byte) (s : State) : (p.foldl txByte s).tx = s.tx ++ p.flatMap symbolsOf := by
  induction p generalizing s with
  | nil => simp
  | cons b rest ih => rw [List.foldl_cons, ih, txByte_tx, List.flatMap_cons, List.append_assoc]

/-- The writes of R130's pseudocode, one after another, are `Frame(p)` of R83. -/
theorem transmit_tx (p : List Byte) (s : State) : (transmit p s).tx = s.tx ++ frameOf s.cfg p := by
  simp [transmit, frameOf, foldl_txByte_tx]

/-- A transmission appends the frame to the TX stream and writes nothing else. -/
theorem transmit_eq (p : List Byte) (s : State) : transmit p s = { s with tx := s.tx ++ frameOf s.cfg p } := by
  rw [transmit_frame, transmit_tx]

/-! ## An operation that is legal only while LIVE -/

theorem whenLive_of_live (s : State) (f : State → State) (h : s.life = .live) : whenLive s f = f s := if_pos h

theorem whenLive_of_not_live (s : State) (f : State → State) (h : s.life ≠ .live) : whenLive s f = raiseFault .notLive s := if_neg h

/-! ## SEND, a lemma per way it ends -/

section
variable (p : List Byte) (s : State)

theorem exec_send_of_not_live (hl : s.life ≠ .live) : exec (.send p) s = .next (raiseFault .notLive s) :=
  congrArg Host.Outcome.next (whenLive_of_not_live s _ hl)

theorem exec_send_of_too_long (hl : s.life = .live) (h : 255 < p.length) : exec (.send p) s = .next (raiseFault .tooLong s) := by
  have hbad : ¬ bytesOperandOk p = true := mt (bytesOperandOk_iff p).mp (Nat.not_le.mpr h)
  rw [exec, execSend, whenLive_of_live s _ hl, if_neg hbad]

/-- Past both fault checks what SEND does depends on the sink alone. -/
theorem exec_send_of_fits (hl : s.life = .live) (h : p.length ≤ 255) :
    exec (.send p) s = .next (setResult .unit (if s.txAttached then transmit p s else s)) := by
  rw [exec, execSend, whenLive_of_live s _ hl, if_pos ((bytesOperandOk_iff p).mpr h)]

end

theorem decodeCommand_send (p rest : List Byte) (h : p.length ≤ 255) :
    decodeCommand (0x50#8 :: putBytes p ++ rest) = .ok (.send p) rest := by
  calc decodeCommand (0x50#8 :: putBytes p ++ rest)
      = withBytes 0x5#4 (putBytes p ++ rest) .send := decodeCommand_low_eq 0x50#8 _ rfl
    _ = .ok (.send p) rest := withBytes_putBytes 0x5#4 .send p rest h

/-- Settles O17: with a sink the writes are `Frame(p)`, without one there are none; the two faults come in R130's order, and up to 255
bytes the length byte gives the payload back. -/
theorem sendWritesFrame : Obligations.SendWritesFrame := by
  intro p s
  refine ⟨?sink, ?noSink, ?notLive, ?tooLong, fun h rest => decodeCommand_send p rest h⟩
  case sink =>
    intro hl h ha
    rw [exec_send_of_fits p s hl h, if_pos ha, transmit_eq]
    rfl
  case noSink =>
    intro hl h ha
    rw [exec_send_of_fits p s hl h, if_neg (ne_true_of_eq_false ha)]
    rfl
  case notLive =>
    intro hl hf
    rw [exec_send_of_not_live p s hl, raiseFault_eq _ s hf]
  case tooLong =>
    intro hl h hf
    rw [exec_send_of_too_long p s hl h, raiseFault_eq _ s hf]

end Sys2Proof.Machine
end

section
/-! SUPPORT. The rows of the receive state machine (43_receive_fsm.md R142 to R150), one lemma per way a byte can go. -/

namespace Sys2Proof.Machine

/-! ## PROCESS_BYTE and the rows of the bytes that are no symbol -/

section
variable (b : Byte) (s : State)

theorem exec_processByte : exec (.processByte b) s = .next (finishByte (receiveByte b s)) := rfl

theorem receiveByte_of_noise (hs : b ≠ s.cfg.stx) (he : b ≠ s.cfg.etx) (hf : s.started = false) :
    receiveByte b s = noiseByte s := by
  rw [receiveByte, if_neg hs, if_neg he, if_pos hf]

theorem receiveByte_of_invalid (hs : b ≠ s.cfg.stx) (he : b ≠ s.cfg.etx) (hf : s.started = true) (h : symbolValid b = false) :
    receiveByte b s = invalidSymbol s := by
  rw [receiveByte, if_neg hs, if_neg he, if_neg (ne_false_of_eq_true hf), decSymbol_of_invalid b h]

theorem exec_wNoise_of_idle (hf : s.started = false) : exec (.wNoise b) s = .next (finishByte (noiseByte s)) := by
  rw [exec, execWNoise, if_neg (ne_true_of_eq_false hf)]

theorem exec_wBad_of_started (hf : s.started = true) : exec (.wBad b) s = .next (finishByte (invalidSymbol s)) := by
  rw [exec, execWBad, if_pos hf]

end

/-- Settles O22: the row is `markEnd`, and the only other write is the row's result. -/
theorem endMarkerSetsEtxSeen : Obligations.EndMarkerSetsEtxSeen := by
  intro s
  calc exec .wEtx s
      = .next (finishByte (endMarker s)) := rfl
    _ = .next { s with etxSeen := true, result := .status .continued } := rfl

/-- Settles O23: outside a frame the row is `noiseByte`, and a byte that is no marker falls through to it in PROCESS_BYTE. -/
theorem noiseIsDiscarded : Obligations.NoiseIsDiscarded := by
  intro b s hf
  refine ⟨exec_wNoise_of_idle b s hf, fun hs he => ?_⟩
  rw [exec_processByte, receiveByte_of_noise b s hs he hf]
  rfl

/-- Settles O25: inside a frame the row is the error action, and PROCESS_BYTE reaches it when the byte neither is a marker nor decodes. -/
theorem invalidSymbolResets : Obligations.InvalidSymbolResets := by
  intro b s hf
  refine ⟨exec_wBad_of_started b s hf, fun hs he h => ?_⟩
  rw [exec_processByte, receiveByte_of_invalid b s hs he hf h, exec_wBad_of_started b s hf]

/-! ## A symbol inside a frame -/

/-- The error action overwrites the nibble assembly, so R146's clearing of the pair before it does not show. -/
@[simp] theorem errorAction_clearPair (s : State) : errorAction (clearPair s) = errorAction s := rfl

/-- Clearing the pair leaves the accumulated payload alone. -/
@[simp] theorem payload_clearPair (s : State) : payload (clearPair s) = payload s := rfl

section
variable (n : Nibble) (s : State)

theorem symbolInFrame_of_first (hf : s.started = true) (hp : s.hiPend = false) :
    symbolInFrame n s = (.continued, holdNibble n s) := by
  rw [symbolInFrame, if_pos hf, symbolByte, if_neg (ne_true_of_eq_false hp)]

/-- A second symbol completes the byte of the pair (R146). -/
theorem symbolInFrame_of_second (hf : s.started = true) (hp : s.hiPend = true) :
    symbolInFrame n s = completedByte (joinNibbles s.hiNib n) (clearPair s) := by
  rw [symbolInFrame, if_pos hf, symbolByte, if_pos hp]

/-- After an end marker the completed byte is the checksum. -/
theorem symbolInFrame_of_checksum (hf : s.started = true) (hp : s.hiPend = true) (hx : s.etxSeen = true) :
    symbolInFrame n s = checksumByte (joinNibbles s.hiNib n) (clearPair s) := by
  rw [symbolInFrame_of_second n s hf hp, completedByte, clearPair_etxSeen, if_pos hx]

/-- Before an end marker the completed byte is payload. -/
theorem symbolInFrame_of_payload (hf : s.started = true) (hp : s.hiPend = true) (hx : s.etxSeen = false) :
    symbolInFrame n s = payloadByte (joinNibbles s.hiNib n) (clearPair s) := by
  rw [symbolInFrame_of_second n s hf hp, completedByte, clearPair_etxSeen, if_neg (ne_true_of_eq_false hx)]

theorem symbolInFrame_of_match (hf : s.started = true) (hp : s.hiPend = true) (hx : s.etxSeen = true)
    (h : joinNibbles s.hiNib n = crcOf (payload s)) :
    symbolInFrame n s = (.completed, markReady (clearPair s)) := by
  rw [symbolInFrame_of_checksum n s hf hp hx, checksumByte, payload_clearPair, if_pos h]

theorem symbolInFrame_of_mismatch (hf : s.started = true) (hp : s.hiPend = true) (hx : s.etxSeen = true)
    (h : joinNibbles s.hiNib n ≠ crcOf (payload s)) :
    symbolInFrame n s = (.continued, errorAction s) := by
  rw [symbolInFrame_of_checksum n s hf hp hx, checksumByte, payload_clearPair, if_neg h, errorAction_clearPair]

theorem symbolInFrame_of_room (hf : s.started = true) (hp : s.hiPend = true) (hx : s.etxSeen = false) (h : s.pos < s.cap) :
    symbolInFrame n s = (.continued, appendByte (joinNibbles s.hiNib n) (clearPair s)) := by
  rw [symbolInFrame_of_payload n s hf hp hx, payloadByte, clearPair_pos, clearPair_cap, if_pos h]

theorem symbolInFrame_of_full (hf : s.started = true) (hp : s.hiPend = true) (hx : s.etxSeen = false) (h : ¬ s.pos < s.cap) :
    symbolInFrame n s = (.continued, errorAction s) := by
  rw [symbolInFrame_of_payload n s hf hp hx, payloadByte, clearPair_pos, clearPair_cap, if_neg h, errorAction_clearPair]

end

/-! ## The sixteen symbol rows -/

/-- Settles O26: with no nibble pending the row is `holdNibble`. -/
theorem firstSymbolIsHeld : Obligations.FirstSymbolIsHeld := by
  intro r hr s hf hp
  rw [exec_symbolRow r hr s, symbolInFrame_of_first r.2 s hf hp]
  rfl

/-- Settles O27: below the capacity the row appends the pair's byte, and a buffer write shows at its own index only. -/
theorem secondSymbolAppends : Obligations.SecondSymbolAppends := by
  intro r hr s hf hp hx hroom
  refine ⟨bufInsert s.buf s.pos.toNat (joinNibbles s.hiNib r.2), ?state, ?written, ?others⟩
  case state =>
    rw [exec_symbolRow r hr s, symbolInFrame_of_room r.2 s hf hp hx hroom]
    rfl
  case written => exact bufLookup_bufInsert_same s.buf s.pos.toNat _
  case others => exact fun i hi => bufLookup_bufInsert_other s.buf s.pos.toNat i _ hi

/-- Settles O28: at the capacity there is no room, and the row is the error action. -/
theorem secondSymbolOverflows : Obligations.SecondSymbolOverflows := by
  intro r hr s hf hp hx hcap
  have hfull : ¬ s.pos < s.cap := hcap ▸ BitVec.lt_irrefl s.pos
  rw [exec_symbolRow r hr s, symbolInFrame_of_full r.2 s hf hp hx hfull]
  rfl

/-- Settles O29: the pair's byte equals the checksum of the accumulated payload, and the row is `markReady`. -/
theorem checksumMatchCompletes : Obligations.ChecksumMatchCompletes := by
  intro r hr s hf hp hx hmatch
  rw [exec_symbolRow r hr s, symbolInFrame_of_match r.2 s hf hp hx hmatch]
  rfl

/-- Settles O30: the pair's byte differs from the checksum of the accumulated payload, and the row is the error action. -/
theorem checksumMismatchResets : Obligations.ChecksumMismatchResets := by
  intro r hr s hf hp hx hdiffers
  rw [exec_symbolRow r hr s, symbolInFrame_of_mismatch r.2 s hf hp hx hdiffers]
  rfl

end Sys2Proof.Machine
end

section
/-! SUPPORT. The host operations (44_host_operations.md R170 to R184): their gating by `life`, INIT, RESET, POLL's contract fault, and the
observation surface. -/

namespace Sys2Proof.Machine

/-! ## The operations that are legal only while LIVE -/

/-- The instruction does `f` while LIVE and is refused in every other `life` value (R184). -/
def LiveGated (i : Instr) (f : State → State) : Prop := ∀ s, exec i s = .next (whenLive s f)

section
variable {i : Instr} {f : State → State}

theorem LiveGated.exec_of_live (h : LiveGated i f) (s : State) (hl : s.life = .live) : exec i s = .next (f s) := by
  rw [h s, whenLive_of_live s f hl]

theorem LiveGated.exec_of_not_live (h : LiveGated i f) (s : State) (hl : s.life ≠ .live) (hf : s.fault = none) :
    exec i s = .next { s with fault := some .notLive } := by
  rw [h s, whenLive_of_not_live s f hl, raiseFault_eq _ s hf]

end

theorem shutdown_gated : LiveGated .shutdown fun s => setResult .unit { s with buf := [], life := .down } := fun _ => rfl

theorem reset_gated : LiveGated .reset fun s => setResult .unit (resetAction s) := fun _ => rfl

theorem poll_gated : LiveGated .poll fun s => if s.ready then raiseFault .pollReady s else drain s.script s := fun _ => rfl

theorem send_gated (p : List Byte) : LiveGated (.send p) fun s =>
    if bytesOperandOk p then setResult .unit (if s.txAttached then transmit p s else s) else raiseFault .tooLong s := fun _ => rfl

theorem rdReady_gated : LiveGated .rdReady fun s => setResult (.flag s.ready) s := fun _ => rfl

theorem rdLen_gated : LiveGated .rdLen fun s => setResult (lenView s) s := fun _ => rfl

theorem rdData_gated (k : Byte) : LiveGated (.rdData k) fun s => setResult (dataView k s) s := fun _ => rfl

theorem rdErr_gated : LiveGated .rdErr fun s => setResult (.count s.errCnt) s := fun _ => rfl

theorem rdStarted_gated : LiveGated .rdStarted fun s => setResult (.flag s.started) s := fun _ => rfl

theorem rdTstart_gated : LiveGated .rdTstart fun s => setResult (startView s) s := fun _ => rfl

/-! ## Past the gate no operation raises `F_NOT_LIVE` -/

/-- Raising one reason does not record another. -/
theorem raiseFault_fault_ne {r q : Fault} (hr : r ≠ q) (s : State) (h : s.fault ≠ some q) : (raiseFault r s).fault ≠ some q := by
  cases hf : s.fault with
  | none => simpa [hf] using hr
  | some old => simpa [hf] using h

/-- The one reason POLL's loop can record is `F_TRANSPORT` (R170). -/
theorem drain_fault_ne {q : Fault} (hq : .transport ≠ q) (script : List HostStep) (s : State) (h : s.fault ≠ some q) :
    (drain script s).fault ≠ some q := by
  refine drain_keeps (fun t => t.fault ≠ some q) ?byte ?result ?broken ?host script s h
  case byte =>
    intro b rest t _ ht
    rwa [receiveByte_fault]
  case result => exact fun r t ht => ht
  case broken => exact raiseFault_fault_ne hq
  case host =>
    intro es rest t ht
    rwa [applyEnvs_fault]

/-- An operation that is gated by `life`, and that raises `F_NOT_LIVE` nowhere else. -/
def LiveOnly (i : Instr) : Prop :=
  ∃ f, LiveGated i f ∧ ∀ s, s.fault ≠ some .notLive → (f s).fault ≠ some .notLive

theorem liveOnly_of_fault_kept {i : Instr} {f : State → State} (hg : LiveGated i f) (hk : ∀ s, (f s).fault = s.fault) : LiveOnly i :=
  ⟨f, hg, fun s h => by rwa [hk s]⟩

theorem liveOnly_poll : LiveOnly .poll := by
  refine ⟨_, poll_gated, fun s h => ?_⟩
  split
  · exact raiseFault_fault_ne (by decide) s h
  · exact drain_fault_ne (by decide) s.script s h

theorem liveOnly_send (p : List Byte) : LiveOnly (.send p) := by
  refine ⟨_, send_gated p, fun s h => ?_⟩
  split
  · rw [setResult_fault]
    split
    · rwa [transmit_fault]
    · exact h
  · exact raiseFault_fault_ne (by decide) s h

/-- R184's table: the operations that are legal only while LIVE. -/
def liveOnlyOps (p : List Byte) (k : Byte) : List Instr :=
  [.shutdown, .reset, .poll, .send p, .rdReady, .rdLen, .rdData k, .rdErr, .rdStarted, .rdTstart]

theorem liveOnly_of_mem (p : List Byte) (k : Byte) : ∀ i ∈ liveOnlyOps p k, LiveOnly i := by
  simp only [liveOnlyOps, List.forall_mem_cons, List.not_mem_nil, false_implies, implies_true, and_true]
  exact ⟨liveOnly_of_fault_kept shutdown_gated fun _ => rfl, liveOnly_of_fault_kept reset_gated fun _ => rfl,
    liveOnly_poll, liveOnly_send p,
    liveOnly_of_fault_kept rdReady_gated fun _ => rfl, liveOnly_of_fault_kept rdLen_gated fun _ => rfl,
    liveOnly_of_fault_kept (rdData_gated k) fun _ => rfl, liveOnly_of_fault_kept rdErr_gated fun _ => rfl,
    liveOnly_of_fault_kept rdStarted_gated fun _ => rfl, liveOnly_of_fault_kept rdTstart_gated fun _ => rfl⟩

/-! ## INIT -/

theorem exec_init_of_uninit (c : Byte) (s : State) (h : s.life = .uninit) :
    exec (.init c) s = .next (setResult .unit (initialise c s)) :=
  congrArg Host.Outcome.next (if_pos h)

theorem exec_init_of_not_uninit (c : Byte) (s : State) (h : s.life ≠ .uninit) (hf : s.fault = none) :
    exec (.init c) s = .next { s with fault := some .reinit } := by
  rw [exec, execInit, if_neg h, raiseFault_eq _ s hf]

/-- Settles O2: in UNINIT the writes are `initialise`, whose buffer is the model's empty list; otherwise the fault. -/
theorem initEntersIdle : Obligations.InitEntersIdle := by
  intro c s
  refine ⟨fun h => ⟨[], exec_init_of_uninit c s h⟩, exec_init_of_not_uninit c s, fun rest => ?_⟩
  exact decodeCommand_low_eq 0x10#8 (c :: rest) rfl

/-- Settles O5: the LIVE-only operations go through one gate and blame it nowhere else; INIT has its own test of `life`; the pure
operations write their result and nothing else. -/
theorem lifecycleGating : Obligations.LifecycleGating := by
  intro s p k hf
  refine ⟨?gateClosed, ?gateOpen, ?init, ?reinit, ?enc, ?dec, ?crc8⟩
  case gateClosed =>
    intro hl i hi
    obtain ⟨f, hgated, -⟩ := liveOnly_of_mem p k i hi
    exact hgated.exec_of_not_live s hl hf
  case gateOpen =>
    intro hl i hi
    obtain ⟨f, hgated, hblame⟩ := liveOnly_of_mem p k i hi
    exact ⟨f s, hgated.exec_of_live s hl, hblame s (by simp [hf])⟩
  case init => exact fun h => ⟨_, exec_init_of_uninit k s h, hf⟩
  case reinit => exact fun h => exec_init_of_not_uninit k s h hf
  case enc => exact fun n h => ⟨_, exec_enc_of_nibble n s h⟩
  case dec => exact ⟨_, rfl⟩
  case crc8 => exact fun h => ⟨_, exec_crc8_of_fits p s h⟩

/-! ## RESET -/

/-- The reset action writes constants, so a second one shows nothing (10_state.md R49). -/
@[simp] theorem resetAction_resetAction (s : State) : resetAction (resetAction s) = resetAction s := rfl

/-- Settles O4: while LIVE the operation is the reset action, which keeps `life`, so a second RESET is legal and writes the same values. -/
theorem resetForcesIdle : Obligations.ResetForcesIdle := by
  intro s
  refine ⟨reset_gated.exec_of_live s, reset_gated.exec_of_not_live s, ?twice, fun rest => decodeCommand_low_eq 0x30#8 rest rfl⟩
  intro t hl hstep
  rw [reset_gated.exec_of_live s hl] at hstep
  obtain rfl := Host.Outcome.next.inj hstep
  calc exec .reset (setResult .unit (resetAction s))
      = .next (setResult .unit (resetAction (resetAction s))) := reset_gated.exec_of_live _ hl
    _ = .next (setResult .unit (resetAction s)) := by rw [resetAction_resetAction]

/-! ## POLL while a packet is ready -/

theorem exec_poll_of_ready (s : State) (hl : s.life = .live) (hr : s.ready = true) :
    exec .poll s = .next (raiseFault .pollReady s) := by
  rw [poll_gated.exec_of_live s hl, if_pos hr]

/-- Settles O33: the ready test stands before the loop, so the state POLL leaves is the fault's. -/
theorem pollWhileReadyFaults : Obligations.PollWhileReadyFaults := by
  intro s hl hr hf
  rw [exec_poll_of_ready s hl hr, raiseFault_eq _ s hf]

/-! ## The observation surface -/

/-- Settles O44: past the gate each read writes its field to the result. -/
theorem statusReads : Obligations.StatusReads := by
  intro s
  refine ⟨fun hl => ?live, fun hl hf => ?notLive, fun rest => ?encodings⟩
  case live =>
    exact ⟨rdReady_gated.exec_of_live s hl, rdErr_gated.exec_of_live s hl, rdStarted_gated.exec_of_live s hl⟩
  case notLive =>
    exact ⟨rdReady_gated.exec_of_not_live s hl hf, rdErr_gated.exec_of_not_live s hl hf, rdStarted_gated.exec_of_not_live s hl hf⟩
  case encodings =>
    exact ⟨decodeCommand_low_eq 0x90#8 rest rfl, decodeCommand_low_eq 0xC0#8 rest rfl, decodeCommand_low_eq 0xD0#8 rest rfl⟩

section
variable (k : Byte) (s : State)

theorem dataView_of_exposed (hr : s.ready = true) (hk : k < s.pos) : dataView k s = .byte (bufRead s k.toNat) := if_pos ⟨hr, hk⟩

/-- "The view has no value outside Complete or beyond the length" (R179). -/
theorem dataView_of_hidden (h : s.ready = false ∨ s.pos ≤ k) : dataView k s = .absent := by
  refine if_neg fun ⟨hr, hk⟩ => ?_
  obtain hnot | hbeyond := h
  · exact ne_true_of_eq_false hnot hr
  · exact BitVec.not_lt.mpr hbeyond hk

theorem startView_of_started (h : s.started = true) : startView s = .stamp s.tStart := if_pos h

theorem startView_of_idle (h : s.started = false) : startView s = .absent := if_neg (ne_true_of_eq_false h)

end

/-- Settles O45: past the gate the results are `lenView` and `dataView`, and the index test splits R179's two cases. -/
theorem payloadReads : Obligations.PayloadReads := by
  intro s k
  refine ⟨fun hl => ⟨rdLen_gated.exec_of_live s hl, ?exposed, ?hidden⟩, fun hl hf => ?notLive, fun rest => ?encodings⟩
  case exposed =>
    intro hr hk
    rw [(rdData_gated k).exec_of_live s hl, dataView_of_exposed k s hr hk]
    rfl
  case hidden =>
    intro h
    rw [(rdData_gated k).exec_of_live s hl, dataView_of_hidden k s h]
    rfl
  case notLive =>
    exact ⟨rdLen_gated.exec_of_not_live s hl hf, (rdData_gated k).exec_of_not_live s hl hf⟩
  case encodings =>
    exact ⟨decodeCommand_low_eq 0xA0#8 rest rfl, decodeCommand_low_eq 0xB0#8 (k :: rest) rfl⟩

/-- Settles O46: past the gate the result is `startView`, which turns on `started` alone. -/
theorem startTimeRead : Obligations.StartTimeRead := by
  intro s
  refine ⟨?started, ?idle, rdTstart_gated.exec_of_not_live s, fun rest => decodeCommand_low_eq 0xE0#8 rest rfl⟩
  case started =>
    intro hl hs
    rw [rdTstart_gated.exec_of_live s hl, startView_of_started s hs]
    rfl
  case idle =>
    intro hl hs
    rw [rdTstart_gated.exec_of_live s hl, startView_of_idle s hs]
    rfl

end Sys2Proof.Machine
end

section
/-! SUPPORT. The encodings read back (30_encoding.md sections 1, 3 and 4): symbols, wire bytes and commands. -/

namespace Sys2Proof.Machine

/-! ## Symbols -/

theorem decSymbol_encSymbol (n : Nibble) : decSymbol (encSymbol n) = some n := by
  revert n
  decide

theorem symbolValid_encSymbol (n : Nibble) : symbolValid (encSymbol n) = true := by
  revert n
  decide

/-- A valid byte is the symbol of its high nibble. -/
theorem encSymbol_hiNibble (b : Byte) (h : symbolValid b = true) : encSymbol (hiNibble b) = b := by
  revert b
  decide

theorem joinNibbles_hi_lo (b : Byte) : joinNibbles (hiNibble b) (loNibble b) = b := by
  revert b
  decide

theorem hiNibble_joinNibbles (h l : Nibble) : hiNibble (joinNibbles h l) = h := by
  revert h l
  decide

theorem loNibble_joinNibbles (h l : Nibble) : loNibble (joinNibbles h l) = l := by
  revert h l
  decide

/-- Only a nibble's own symbol decodes to it. -/
theorem eq_encSymbol_of_decSymbol (b : Byte) (n : Nibble) (h : decSymbol b = some n) : b = encSymbol n := by
  cases hv : symbolValid b with
  | false => simp [decSymbol_of_invalid b hv] at h
  | true =>
    rw [decSymbol_of_valid b hv, Option.some.injEq] at h
    rw [← h, encSymbol_hiNibble b hv]

/-- Settles O12: the two halves are the two lemmas. -/
theorem symbolRoundTrip : Obligations.SymbolRoundTrip := ⟨decSymbol_encSymbol, eq_encSymbol_of_decSymbol⟩

/-- Settles O13: the sixteen symbols and eight bits, case by case. -/
theorem oneBitChangeIsInvalid : Obligations.OneBitChangeIsInvalid := by
  unfold Obligations.OneBitChangeIsInvalid
  decide

/-! ## Legal markers -/

/-- R84: "`STX != ETX`, and neither is a valid symbol". -/
structure LegalMarkers (c : Config) : Prop where
  ne : c.stx ≠ c.etx
  stx_invalid : symbolValid c.stx = false
  etx_invalid : symbolValid c.etx = false

theorem legalMarkers_of_wf {c : Config} (h : c.wf = true) : LegalMarkers c := by
  simp only [Config.wf, Bool.and_eq_true, bne_iff_ne, Bool.not_eq_true'] at h
  obtain ⟨⟨⟨⟨⟨hne, hs⟩, he⟩, -⟩, -⟩, -⟩ := h
  exact ⟨hne, hs, he⟩

section
variable {c : Config} (h : LegalMarkers c) (n : Nibble)
include h

theorem encSymbol_ne_stx : encSymbol n ≠ c.stx := fun e => by
  simpa [e, h.stx_invalid] using symbolValid_encSymbol n

theorem encSymbol_ne_etx : encSymbol n ≠ c.etx := fun e => by
  simpa [e, h.etx_invalid] using symbolValid_encSymbol n

/-- Under legal markers a symbol inside a frame is classed as its nibble's row. -/
theorem classify_encSymbol : classify c true (encSymbol n) = symbolRow n := by
  simp [classify, encSymbol_ne_stx h n, encSymbol_ne_etx h n, decSymbol_encSymbol]

end

/-! ## Decode after encode -/

/-- In its own space the encoding of `i` is read back as `i`, and nothing after it is taken. -/
def DecodesBack (c : Config) (i : Instr) : Prop :=
  ∀ bs rest, encode c i = some bs → decode c i.space (bs ++ rest) = .ok i rest

section
variable {c : Config} {i : Instr}

theorem decodesBack_command {w : Byte} {operands : List Byte} (hs : i.space = .command) (he : encode c i = some (w :: operands))
    (hd : ∀ rest, decodeCommand (w :: (operands ++ rest)) = .ok i rest) : DecodesBack c i := by
  intro bs rest hbs
  obtain rfl := Option.some.inj (he.symm.trans hbs)
  rw [hs]
  exact hd rest

theorem decodesBack_wire {started : Bool} {b : Byte} (hs : i.space = .wire started) (he : encode c i = some [b])
    (hd : classify c started b = i) : DecodesBack c i := by
  intro bs rest hbs
  obtain rfl := Option.some.inj (he.symm.trans hbs)
  rw [hs]
  exact congrArg (Decoded.ok · rest) hd

/-- "CRC8_STEP and PROCESS_BYTE have no command code" (R89). -/
theorem decodesBack_of_no_encoding (he : encode c i = none) : DecodesBack c i := by
  intro bs rest hbs
  simp [he] at hbs

end

theorem decodeCommand_illegalLowNibble (op low : Nibble) (rest : List Byte) (h : low ≠ 0#4) :
    decodeCommand (joinNibbles op low :: rest) = .ok (.illegalLowNibble op low) rest := by
  rw [decodeCommand_low_ne _ rest (by rwa [loNibble_joinNibbles]), hiNibble_joinNibbles, loNibble_joinNibbles]

theorem decodesBack_of_wellFormed (c : Config) (i : Instr) (hc : LegalMarkers c) (hi : i.wellFormed c = true) :
    DecodesBack c i := by
  cases i
  case init | shutdown | reset | poll | enc | dec | rdReady | rdLen | rdData | rdErr | rdStarted | rdTstart | reserved00 | reservedF0 =>
    exact decodesBack_command rfl rfl fun rest => decodeCommand_low_eq _ _ rfl
  case send p => exact decodesBack_command rfl rfl fun rest => decodeCommand_send p rest ((bytesOperandOk_iff p).mp hi)
  case crc8 xs => exact decodesBack_command rfl rfl fun rest => decodeCommand_crc8 xs rest ((bytesOperandOk_iff xs).mp hi)
  case illegalLowNibble op low =>
    exact decodesBack_command rfl rfl fun rest => decodeCommand_illegalLowNibble op low rest (bne_iff_ne.mp hi)
  case crc8Step | processByte => exact decodesBack_of_no_encoding rfl
  case wStx => exact decodesBack_wire rfl rfl (classify_stx c true)
  case wEtx => exact decodesBack_wire rfl rfl (classify_etx c true hc.ne.symm)
  case wNoise b =>
    obtain ⟨hs, he⟩ : b ≠ c.stx ∧ b ≠ c.etx := by simpa [Instr.wellFormed] using hi
    exact decodesBack_wire rfl rfl (classify_noise c b hs he)
  case wBad b =>
    obtain ⟨⟨hs, he⟩, hv⟩ : (b ≠ c.stx ∧ b ≠ c.etx) ∧ symbolValid b = false := by simpa [Instr.wellFormed] using hi
    exact decodesBack_wire rfl rfl (classify_invalid c b hs he hv)
  case wSym0 | wSym1 | wSym2 | wSym3 | wSym4 | wSym5 | wSym6 | wSym7 | wSym8 | wSym9 | wSymA | wSymB | wSymC | wSymD | wSymE | wSymF =>
    exact decodesBack_wire rfl rfl (classify_encSymbol hc _)

/-- Settles O49: a case per row, by the form of its encoding: a command word with its operands, a wire byte, or none. -/
theorem decodeEncode : Obligations.DecodeEncode := fun c i bs rest hc hi he =>
  decodesBack_of_wellFormed c i (legalMarkers_of_wf hc) hi bs rest he

/-! ## Encode after decode -/

/-- The command `i` was read from the front of `bs`: its encoding stands there, and `rest` after it. -/
def ReadFrom (c : Config) (bs rest : List Byte) (i : Instr) : Prop :=
  i.space = .command ∧ ∃ e, encode c i = some e ∧ bs = e ++ rest

theorem readFrom_withByte {c : Config} {w : Byte} {op : Nibble} {f : Byte → Instr} {bs rest : List Byte} {i : Instr}
    (hs : ∀ x, (f x).space = .command) (he : ∀ x, encode c (f x) = some [w, x]) (h : withByte op bs f = .ok i rest) :
    ReadFrom c (w :: bs) rest i := by
  cases bs with
  | nil => cases h
  | cons x more =>
    cases h
    exact ⟨hs x, _, he x, rfl⟩

/-- The bytes a `bytes` operand is read from are the ones that write it (R88). -/
theorem putBytes_of_takeBytes (bs xs rest : List Byte) (h : takeBytes bs = some (xs, rest)) : bs = putBytes xs ++ rest := by
  cases bs with
  | nil => cases h
  | cons n more =>
    simp only [takeBytes] at h
    split at h
    · rename_i hn
      cases h
      simp [putBytes, hn]
    · cases h

theorem readFrom_withBytes {c : Config} {w : Byte} {op : Nibble} {f : List Byte → Instr} {bs rest : List Byte} {i : Instr}
    (hs : ∀ xs, (f xs).space = .command) (he : ∀ xs, encode c (f xs) = some (w :: putBytes xs)) (h : withBytes op bs f = .ok i rest) :
    ReadFrom c (w :: bs) rest i := by
  unfold withBytes at h
  split at h
  · rename_i xs more ht
    cases h
    exact ⟨hs xs, _, he xs, congrArg (w :: ·) (putBytes_of_takeBytes bs xs _ ht)⟩
  · cases h

/-- A row without operands takes its command word alone. -/
theorem readFrom_word {c : Config} {w : Byte} {bs rest : List Byte} {i j : Instr} (hs : j.space = .command)
    (he : encode c j = some [w]) (h : Decoded.ok j bs = .ok i rest) : ReadFrom c (w :: bs) rest i := by
  cases h
  exact ⟨hs, _, he, rfl⟩

/-- R89's table, read from the operation code: each row's command word is the code over a zero low nibble. -/
theorem readFrom_decodeOp (c : Config) (op : Nibble) (bs rest : List Byte) (i : Instr) (h : decodeOp op bs = .ok i rest) :
    ReadFrom c (joinNibbles op 0#4 :: bs) rest i := by
  obtain ⟨k, rfl⟩ : ∃ k : Fin 16, op = BitVec.ofFin k := ⟨op.toFin, rfl⟩
  fin_cases k
  · exact readFrom_word rfl rfl h
  · exact readFrom_withByte (fun _ => rfl) (fun _ => rfl) h
  · exact readFrom_word rfl rfl h
  · exact readFrom_word rfl rfl h
  · exact readFrom_word rfl rfl h
  · exact readFrom_withBytes (fun _ => rfl) (fun _ => rfl) h
  · exact readFrom_withByte (fun _ => rfl) (fun _ => rfl) h
  · exact readFrom_withByte (fun _ => rfl) (fun _ => rfl) h
  · exact readFrom_withBytes (fun _ => rfl) (fun _ => rfl) h
  · exact readFrom_word rfl rfl h
  · exact readFrom_word rfl rfl h
  · exact readFrom_withByte (fun _ => rfl) (fun _ => rfl) h
  · exact readFrom_word rfl rfl h
  · exact readFrom_word rfl rfl h
  · exact readFrom_word rfl rfl h
  · exact readFrom_word rfl rfl h

/-- Settles O50: a refused word is its own two nibbles; otherwise the operation code selects the row, and the operand's bytes are those
that write it. -/
theorem encodeDecodeCommand : Obligations.EncodeDecodeCommand := by
  intro c bs rest i h
  cases bs with
  | nil => cases h
  | cons w more =>
    by_cases hlow : loNibble w = 0#4
    · rw [decodeCommand_low_eq w more hlow] at h
      have hw : joinNibbles (hiNibble w) 0#4 = w := by rw [← hlow, joinNibbles_hi_lo]
      have hread := readFrom_decodeOp c (hiNibble w) more rest i h
      rwa [hw] at hread
    · rw [decodeCommand_low_ne w more hlow] at h
      exact readFrom_word rfl (by rw [encode, joinNibbles_hi_lo]) h

/-- Settles O51: each word is closed, and the decoder evaluates on it. -/
theorem tableWordsDecode : Obligations.TableWordsDecode := by
  unfold Obligations.TableWordsDecode
  decide

end Sys2Proof.Machine
end

section
/-! SUPPORT. The checksum tells any two bytes apart (41_crc8.md R120, R121), and the shape of a frame (30_encoding.md R83). -/

namespace Sys2Proof.Machine

/-! ## CRC8_STEP as a shift of one byte -/

/-- The iteration of R120 with nothing left in the working byte. -/
def crcShift (x : Byte) : Byte := (crcIteration (x, 0#8)).1

/-- What undoes it: the polynomial has bit 7, which the shift clears, so bit 7 of the result is the test bit. -/
def crcUnshift (y : Byte) : Byte := if y.msb then ((y ^^^ crcPoly) <<< 1) ||| 1#8 else y <<< 1

theorem crcUnshift_crcShift (x : Byte) : crcUnshift (crcShift x) = x := by
  revert x
  decide

theorem crcShift_injective : Function.Injective crcShift := Function.LeftInverse.injective crcUnshift_crcShift

/-- The test bit is one of `a ^ w`, so an iteration shifts `a ^ w` and the working byte side by side. -/
theorem crcIteration_eq_shift (x w : Byte) : crcIteration (x ^^^ w, w) = (crcShift x ^^^ (w >>> 1), w >>> 1) := by
  simp only [crcShift, crcIteration, xor_cancel_right, BitVec.xor_zero, BitVec.ushiftRight_xor_distrib]
  split
  · rw [BitVec.xor_assoc, BitVec.xor_assoc, BitVec.xor_comm crcPoly]
  · rfl

theorem repeat_crcIteration (k : Nat) (x w : Byte) :
    Nat.repeat crcIteration k (x ^^^ w, w) = (crcShift^[k] x ^^^ (w >>> k), w >>> k) := by
  induction k with
  | zero => simp [Nat.repeat]
  | succ k ih => rw [Nat.repeat, ih, crcIteration_eq_shift, Function.iterate_succ_apply', ← BitVec.shiftRight_add]

/-- The eight iterations shift the working byte out, and are eight shifts of `acc ^ b`. -/
theorem crcStep_eq_shift (acc b : Byte) : crcStep acc b = crcShift^[8] (acc ^^^ b) := by
  have hrun := repeat_crcIteration 8 (acc ^^^ b) b
  rw [xor_cancel_right, BitVec.ushiftRight_eq_zero (le_refl 8), BitVec.xor_zero] at hrun
  rw [crcStep, hrun]

theorem crcStep_left_injective (b : Byte) : Function.Injective fun acc => crcStep acc b := by
  intro x y h
  simp only [crcStep_eq_shift] at h
  exact (BitVec.xor_left_inj b).mp (crcShift_injective.iterate 8 h)

theorem crcStep_right_injective (acc : Byte) : Function.Injective (crcStep acc) := by
  intro x y h
  simp only [crcStep_eq_shift] at h
  exact (BitVec.xor_right_inj acc).mp (crcShift_injective.iterate 8 h)

/-- Folding the same bytes into two accumulators keeps them apart. -/
theorem foldl_crcStep_injective (ys : List Byte) : Function.Injective fun acc => ys.foldl crcStep acc := by
  induction ys with
  | nil => exact fun _ _ h => h
  | cons y ys ih => exact fun _ _ h => crcStep_left_injective y (ih h)

/-- Settles O16: the accumulators agree up to the changed byte, that byte sets them apart, and the bytes after it keep them apart. -/
theorem crcCatchesOneChangedByte : Obligations.CrcCatchesOneChangedByte := by
  intro xs ys a b hne h
  simp only [crcOf, List.foldl_append, List.foldl_cons] at h
  exact hne (crcStep_right_injective _ (foldl_crcStep_injective ys h))

/-! ## The frame -/

theorem length_flatMap_symbolsOf (p : List Byte) : (p.flatMap symbolsOf).length = 2 * p.length := by
  induction p with
  | nil => rfl
  | cons b p ih => simp [symbolsOf, ih]; omega

/-- A frame is its two markers, each before a run of symbols. -/
theorem frameOf_eq (c : Config) (p : List Byte) :
    frameOf c p = c.stx :: (p.flatMap symbolsOf ++ c.etx :: [crcOf p].flatMap symbolsOf) := by
  simp [frameOf]

/-- A frame's bytes between and after the markers are symbols. -/
theorem symbolValid_of_mem_flatMap {x : Byte} {p : List Byte} (h : x ∈ p.flatMap symbolsOf) : symbolValid x = true := by
  obtain ⟨b, -, hx⟩ := List.mem_flatMap.mp h
  simp only [symbolsOf, List.mem_cons, List.not_mem_nil, or_false] at hx
  obtain rfl | rfl := hx <;> exact symbolValid_encSymbol _

theorem count_flatMap_symbolsOf {m : Byte} (hm : symbolValid m = false) (p : List Byte) : (p.flatMap symbolsOf).count m = 0 :=
  List.count_eq_zero.mpr fun hmem => ne_true_of_eq_false hm (symbolValid_of_mem_flatMap hmem)

/-- Settles O18: the symbols are two per byte, and none of them is a marker. -/
theorem frameShape : Obligations.FrameShape := by
  intro c p hc
  obtain ⟨hne, hs, he⟩ := legalMarkers_of_wf hc
  have hstx := count_flatMap_symbolsOf hs
  have hetx := count_flatMap_symbolsOf he
  rw [frameOf_eq]
  refine ⟨?length, ?stx, ?etx⟩
  case length =>
    simp only [List.length_cons, List.length_append, length_flatMap_symbolsOf, List.length_nil]
  case stx => rw [List.count_cons_self, List.count_append, List.count_cons_of_ne hne.symm, hstx, hstx]
  case etx => rw [List.count_cons_of_ne hne, List.count_append, List.count_cons_self, hetx, hetx]

end Sys2Proof.Machine
end

section
/-! SUPPORT. Everything a command, a wire-byte row and a step can do, said once, and what follows for the lifecycle, the capacity, the fault,
"packet ready" and the error counter (10_state.md section 1, 60_exceptions.md section 2). -/

namespace Sys2Proof.Machine

/-! ## Everything a command can do -/

/-- How a host command ends: refused, with a result alone, or with the writes of its own operation. -/
inductive CommandCase : Instr → State → State → Prop where
  | refused (i : Instr) (r : Fault) (s : State) : CommandCase i s (raiseFault r s)
  | answered (i : Instr) (r : OpResult) (s : State) : CommandCase i s (setResult r s)
  /-- R175. -/
  | init (c : Byte) (s : State) (h : s.life = .uninit) : CommandCase (.init c) s (setResult .unit (initialise c s))
  /-- R176. -/
  | shutdown (s : State) (h : s.life = .live) : CommandCase .shutdown s (setResult .unit { s with buf := [], life := .down })
  /-- R174. -/
  | reset (s : State) (h : s.life = .live) : CommandCase .reset s (setResult .unit (resetAction s))
  /-- R130. -/
  | sent (p : List Byte) (s : State) : CommandCase (.send p) s (setResult .unit (transmit p s))
  /-- R170. -/
  | polled (s : State) (hl : s.life = .live) (hr : s.ready = false) : CommandCase .poll s (drain s.script s)

/-- A gated operation is refused, or does what it does while LIVE. -/
theorem LiveGated.commandCase {i : Instr} {f : State → State} (h : LiveGated i f) (s : State)
    (hf : s.life = .live → CommandCase i s (f s)) : ∃ t, exec i s = .next t ∧ CommandCase i s t := by
  by_cases hl : s.life = .live
  · exact ⟨f s, h.exec_of_live s hl, hf hl⟩
  · exact ⟨_, by rw [h s, whenLive_of_not_live s f hl], .refused i .notLive s⟩

theorem commandCase_exec (i : Instr) (s : State) (hi : i.space = .command) : ∃ t, exec i s = .next t ∧ CommandCase i s t := by
  cases i
  case init c =>
    by_cases h : s.life = .uninit
    · exact ⟨_, exec_init_of_uninit c s h, .init c s h⟩
    · exact ⟨_, congrArg Host.Outcome.next (if_neg h), .refused _ .reinit s⟩
  case shutdown => exact shutdown_gated.commandCase s (.shutdown s)
  case reset => exact reset_gated.commandCase s (.reset s)
  case poll =>
    refine poll_gated.commandCase s fun hl => ?_
    split
    · exact .refused _ _ s
    · rename_i hr
      exact .polled s hl (Bool.eq_false_of_not_eq_true hr)
  case send p =>
    refine (send_gated p).commandCase s fun _ => ?_
    split
    · split
      · exact .sent p s
      · exact .answered _ _ s
    · exact .refused _ _ s
  case enc n =>
    by_cases h : n.toNat ≤ 15
    · exact ⟨_, exec_enc_of_nibble n s h, .answered _ _ s⟩
    · exact ⟨_, exec_enc_of_not_nibble n s (Nat.not_le.mp h), .refused _ _ s⟩
  case dec => exact ⟨_, rfl, .answered _ _ s⟩
  case crc8 xs =>
    by_cases h : xs.length ≤ 255
    · exact ⟨_, exec_crc8_of_fits xs s h, .answered _ _ s⟩
    · exact ⟨_, exec_crc8_of_too_long xs s (Nat.not_le.mp h), .refused _ _ s⟩
  case rdReady => exact rdReady_gated.commandCase s fun _ => .answered _ _ s
  case rdLen => exact rdLen_gated.commandCase s fun _ => .answered _ _ s
  case rdData k => exact (rdData_gated k).commandCase s fun _ => .answered _ _ s
  case rdErr => exact rdErr_gated.commandCase s fun _ => .answered _ _ s
  case rdStarted => exact rdStarted_gated.commandCase s fun _ => .answered _ _ s
  case rdTstart => exact rdTstart_gated.commandCase s fun _ => .answered _ _ s
  case reserved00 | reservedF0 | illegalLowNibble => exact ⟨_, rfl, .refused _ _ s⟩
  all_goals cases hi

theorem commandCase_of_exec {i : Instr} {s t : State} (hi : i.space = .command) (h : exec i s = .next t) : CommandCase i s t := by
  obtain ⟨u, hu, hcase⟩ := commandCase_exec i s hi
  obtain rfl := Host.Outcome.next.inj (h.symm.trans hu)
  exact hcase

/-! ## The internal operations and the wire-byte rows -/

/-- No row that the host cannot invoke writes the lifecycle or the fault. -/
theorem exec_row_frame {i : Instr} {s t : State} (hi : i.space ≠ .command) (h : exec i s = .next t) :
    t.life = s.life ∧ t.fault = s.fault := by
  cases i
  case crc8Step | wStx | wEtx =>
    cases h
    exact ⟨rfl, rfl⟩
  case processByte b =>
    cases h
    exact ⟨receiveByte_life b s, receiveByte_fault b s⟩
  case wNoise b =>
    rw [exec, execWNoise] at h
    cases h
    split
    · exact ⟨receiveByte_life b s, receiveByte_fault b s⟩
    · exact ⟨rfl, rfl⟩
  case wBad b =>
    rw [exec, execWBad] at h
    cases h
    split <;> exact ⟨rfl, rfl⟩
  case wSym0 | wSym1 | wSym2 | wSym3 | wSym4 | wSym5 | wSym6 | wSym7 | wSym8 | wSym9 | wSymA | wSymB | wSymC | wSymD | wSymE | wSymF =>
    cases h
    obtain ⟨-, hlife, -, hfault⟩ := symbolInFrame_frame _ s
    exact ⟨hlife, hfault⟩
  all_goals exact absurd rfl hi

/-! ## Everything a step can do -/

/-- What a step that goes on did: nothing, host steps, or a command. -/
inductive StepCase (s : State) : State → Prop where
  | idle : StepCase s s
  | host (es : List EnvStep) (rest : List HostStep) : StepCase s (applyEnvs es (setScript rest s))
  | command (i : Instr) (rest : List HostStep) (t : State) (hi : i.space = .command) (h : CommandCase i (setScript rest s) t) :
      StepCase s t

theorem fetch_host {s t : State} (h : fetch s = .host t) : ∃ es rest, t = applyEnvs es (setScript rest s) := by
  unfold fetch at h
  split at h
  · cases h
  · rename_i e rest _
    cases h
    exact ⟨[e], rest, rfl⟩
  · rename_i es rest _
    cases h
    exact ⟨es, rest, rfl⟩
  · split at h <;> cases h
  · rename_i bs rest _
    unfold fetchCommand at h
    split at h <;> cases h
    exact ⟨[], rest, rfl⟩

/-- Only commands are fetched (30_encoding.md R89): a chunk is read as command words, and a call of anything else is refused. -/
theorem fetch_run_command {s u : State} {i : Instr} (h : fetch s = .run i u) : i.space = .command := by
  unfold fetch at h
  split at h
  · cases h
  · cases h
  · cases h
  · split at h
    · rename_i hi
      cases h
      exact hi
    · cases h
  · unfold fetchCommand at h
    split at h <;> cases h
    rename_i hd
    exact (encodeDecodeCommand s.cfg _ _ _ hd).1

theorem stepCase_of_step {s t : State} (h : step s = .next t) : StepCase s t := by
  obtain ⟨-, ⟨-, rfl⟩ | hhost | ⟨i, u, hrun, hexec⟩⟩ := step_cases s t h
  · exact .idle
  · obtain ⟨es, rest, rfl⟩ := fetch_host hhost
    exact .host es rest
  · have hi := fetch_run_command hrun
    rw [fetch_run s u i hrun] at hexec
    exact .command i u.script t hi (commandCase_of_exec hi hexec)

/-! ## The lifecycle -/

theorem commandCase_life {i : Instr} {s t : State} (h : CommandCase i s t) (hne : t.life ≠ s.life) :
    (∃ c, i = .init c ∧ s.life = .uninit ∧ t.life = .live) ∨ (i = .shutdown ∧ s.life = .live ∧ t.life = .down) := by
  cases h with
  | refused | answered => exact absurd rfl hne
  | reset | sent => exact absurd (by simp) hne
  | polled => exact absurd (drain_life _ s) hne
  | init c _ hl => exact .inl ⟨c, rfl, hl, rfl⟩
  | shutdown _ hl => exact .inr ⟨rfl, hl, rfl⟩

/-- Settles O6: a row writes no `life`, and of a step's cases only a command writes it. -/
theorem lifeChangesOnlyByInitAndShutdown : Obligations.LifeChangesOnlyByInitAndShutdown := by
  refine ⟨rfl, fun i s t h hne => ?_, fun s t h hne => ?_⟩
  · by_cases hi : i.space = .command
    · exact commandCase_life (commandCase_of_exec hi h) hne
    · exact absurd (exec_row_frame hi h).1 hne
  · cases stepCase_of_step h with
    | idle => exact absurd rfl hne
    | host es rest => exact absurd (by simp) hne
    | command i rest t _ hc =>
      obtain ⟨c, -, hs, ht⟩ | ⟨-, hs, ht⟩ := commandCase_life hc hne
      · exact .inl ⟨hs, ht⟩
      · exact .inr ⟨hs, ht⟩

/-- `t` has the parameters of `s`, and once `s` is initialised also its capacity. -/
def SameCapacity (s t : State) : Prop := t.cfg = s.cfg ∧ (s.life ≠ .uninit → t.life ≠ .uninit ∧ t.cap = s.cap)

theorem commandCase_sameCapacity {i : Instr} {s t : State} (h : CommandCase i s t) : SameCapacity s t := by
  cases h with
  | refused | answered | reset => exact ⟨rfl, fun hl => ⟨hl, rfl⟩⟩
  | sent p => exact ⟨by simp, fun hl => by simpa using hl⟩
  | polled => exact ⟨drain_cfg _ s, fun hl => by simpa using hl⟩
  | init c _ hl => exact ⟨rfl, fun hne => absurd hl hne⟩
  | shutdown => exact ⟨rfl, fun _ => ⟨Life.noConfusion, rfl⟩⟩

theorem step_sameCapacity {s t : State} (h : step s = .next t) : SameCapacity s t := by
  cases stepCase_of_step h with
  | idle => exact ⟨rfl, fun hl => ⟨hl, rfl⟩⟩
  | host es rest => exact ⟨by simp, fun hl => by simpa using hl⟩
  | command i rest t _ hc =>
    have hkept : SameCapacity (setScript rest s) t := commandCase_sameCapacity hc
    exact hkept

/-- Settles O7, by induction on the run. -/
theorem capacityFixedOverRuns : Obligations.CapacityFixedOverRuns := by
  intro s t h
  induction h with
  | refl => exact ⟨rfl, fun hl => ⟨hl, rfl⟩⟩
  | tail _ hstep ih =>
    obtain ⟨hcfg, hcap⟩ := ih
    obtain ⟨hcfg', hcap'⟩ := step_sameCapacity hstep
    refine ⟨hcfg'.trans hcfg, fun hl => ?_⟩
    obtain ⟨hl₁, h₁⟩ := hcap hl
    obtain ⟨hl₂, h₂⟩ := hcap' hl₁
    exact ⟨hl₂, h₂.trans h₁⟩

/-- Settles O1: the writes of INIT are `initialise`. -/
theorem creationAndInitValues : Obligations.CreationAndInitValues := by
  refine ⟨rfl, rfl, fun c s h => ⟨_, exec_init_of_uninit c s h, ?_⟩⟩
  exact ⟨rfl, rfl, rfl, rfl, rfl, rfl, rfl, rfl, rfl, rfl, id⟩

/-- Settles O3: past the gate the writes are the empty buffer and DOWN. -/
theorem shutdownReleasesBuffer : Obligations.ShutdownReleasesBuffer := fun s =>
  ⟨shutdown_gated.exec_of_live s, shutdown_gated.exec_of_not_live s, fun rest => decodeCommand_low_eq 0x20#8 rest rfl⟩

/-! ## The fault -/

/-- "Once set keeps its reason" (R206), over POLL's loop. -/
theorem drain_fault_some {r : Fault} (script : List HostStep) (s : State) (h : s.fault = some r) : (drain script s).fault = some r := by
  refine drain_keeps (fun t => t.fault = some r) ?byte ?result ?broken ?host script s h
  case byte =>
    intro b rest t _ ht
    rwa [receiveByte_fault]
  case result => exact fun q t ht => ht
  case broken => exact fun t ht => raiseFault_fault_some _ r t ht
  case host =>
    intro es rest t ht
    rwa [applyEnvs_fault]

theorem commandCase_fault_some {i : Instr} {s t : State} {r : Fault} (h : CommandCase i s t) (hr : s.fault = some r) :
    t.fault = some r := by
  cases h with
  | refused => exact raiseFault_fault_some _ r s hr
  | answered | init | shutdown | reset => exact hr
  | sent p => rwa [setResult_fault, transmit_fault]
  | polled => exact drain_fault_some s.script s hr

/-- Settles O9: the step looks at the fault first, and no operation overwrites it. -/
theorem faultIsSticky : Obligations.FaultIsSticky := by
  refine ⟨fun s r h => ?_, fun i s t r hr h => ?_⟩
  · rw [step, h]
  · by_cases hi : i.space = .command
    · exact commandCase_fault_some (commandCase_of_exec hi h) hr
    · rw [(exec_row_frame hi h).2, hr]

/-! ## "Packet ready" and the error counter -/

theorem commandCase_ready {i : Instr} {s t : State} (h : CommandCase i s t) :
    t.ready = s.ready ∨ (i = .poll ∧ s.ready = false) ∨ (t.ready = false ∧ (i = .reset ∨ ∃ c, i = .init c)) := by
  cases h with
  | refused | answered | shutdown => exact .inl rfl
  | sent p => exact .inl (by simp)
  | init c => exact .inr (.inr ⟨rfl, .inr ⟨c, rfl⟩⟩)
  | reset => exact .inr (.inr ⟨rfl, .inl rfl⟩)
  | polled _ _ hr => exact .inr (.inl ⟨rfl, hr⟩)

/-- Settles O47: only POLL's loop runs PROCESS_BYTE, and it is entered with no packet ready. -/
theorem readyProtocol : Obligations.ReadyProtocol := by
  intro i s t hi h
  obtain hkept | ⟨hpoll, hs⟩ | ⟨ht, hwho⟩ := commandCase_ready (commandCase_of_exec hi h)
  · exact ⟨fun hs ht => by simp [hkept, hs] at ht, fun hs ht => by simp [hkept, hs] at ht⟩
  · exact ⟨fun _ _ => hpoll, fun hready => by simp [hs] at hready⟩
  · exact ⟨fun _ hready => by simp [ht] at hready, fun _ _ => hwho⟩

/-- Settles O48, by the ways a command ends. -/
theorem errorCounterWriters : Obligations.ErrorCounterWriters := by
  intro i s t hi h hne
  cases commandCase_of_exec hi h with
  | refused | answered | shutdown | reset => exact absurd rfl hne
  | sent p => exact absurd (by simp) hne
  | init c => exact .inr ⟨c, rfl⟩
  | polled => exact .inl rfl

end Sys2Proof.Machine
end

section
/-! SUPPORT. The invariants of 10_state.md R44: every write of the receiver keeps them, and so does every step. -/

namespace Sys2Proof.Machine

/-! ## "Packet ready" after one byte -/

/-- A byte that completes no packet leaves none ready. -/
theorem receiveByte_ready_of_continued {b : Byte} {s : State} (hr : s.ready = false) (hc : (receiveByte b s).1 = .continued) :
    (receiveByte b s).2.ready = false := by
  have h := receiveByte_cases b s
  generalize receiveByte b s = r at h hc
  cases h with
  | startMarker | endMarker | noise | first | appended => exact hr
  | invalid | mismatched | overflow => rfl
  | matched => cases hc

/-- A byte that completes a packet leaves it ready. -/
theorem receiveByte_ready_of_completed {b : Byte} {s : State} (hc : (receiveByte b s).1 = .completed) :
    (receiveByte b s).2.ready = true := by
  have h := receiveByte_cases b s
  generalize receiveByte b s = r at h hc
  cases h with
  | matched => rfl
  | startMarker | endMarker | noise | first | appended | invalid | mismatched | overflow => cases hc

/-! ## The widths and the position -/

theorem errInit_lt_of_wf {c : Config} (h : c.wf = true) : c.errInit < 2 ^ c.errW := by
  simp only [Config.wf, Bool.and_eq_true, decide_eq_true_eq] at h
  tauto

/-- `Now()` has `TS_W` bits (20_memory.md R73). -/
theorem nowValue_lt (s : State) : nowValue s < 2 ^ s.cfg.tsW := by
  unfold nowValue
  split <;> exact Nat.mod_lt _ (Nat.two_pow_pos _)

/-- Below the capacity the position does not wrap. -/
theorem appendByte_pos_toNat (v : Byte) (s : State) (h : s.pos < s.cap) : (appendByte v s).pos.toNat = s.pos.toNat + 1 := by
  have hcap : s.cap.toNat < 256 := s.cap.isLt
  have hlt : s.pos.toNat < s.cap.toNat := h
  rw [appendByte_pos, BitVec.toNat_add, BitVec.toNat_ofNat]
  omega

/-! ## The invariants, one lemma per write -/

namespace State.Inv

section
variable {s : State} (h : s.Inv)
include h

theorem setResult (r : OpResult) : (setResult r s).Inv := { h with }

theorem setScript (rest : List HostStep) : (setScript rest s).Inv := { h with }

theorem setRx (rest : List Byte) : (setRx rest s).Inv := { h with }

theorem raiseFault (r : Fault) : (raiseFault r s).Inv := { h with }

/-- Host steps write no field the invariants speak of. -/
theorem applyEnvs (es : List EnvStep) : (applyEnvs es s).Inv := by
  rw [applyEnvs_frame]
  exact { h with }

theorem transmit (p : List Byte) : (transmit p s).Inv := by
  rw [transmit_frame]
  exact { h with }

theorem resetAction : (resetAction s).Inv :=
  { h with
    pos_le_cap := Nat.zero_le _
    ready_flags := Bool.noConfusion
    nibble_canonical := fun _ => rfl
    payload_written := fun _ i hi => absurd hi (Nat.not_lt_zero i)
    pend_in_frame := Bool.noConfusion
    pos_in_frame := fun _ => rfl
    ts_width := Nat.two_pow_pos _ }

theorem errorAction : (errorAction s).Inv :=
  { h.resetAction with err_width := Nat.mod_lt _ (Nat.two_pow_pos _) }

theorem markEnd : (markEnd s).Inv :=
  { h with
    ready_flags := fun hr => by
      obtain ⟨hs, -, hp⟩ := h.ready_flags hr
      exact ⟨hs, rfl, hp⟩ }

theorem clearPair : (clearPair s).Inv :=
  { h with
    ready_flags := fun hr => by
      obtain ⟨hs, hx, -⟩ := h.ready_flags hr
      exact ⟨hs, hx, rfl⟩
    nibble_canonical := fun _ => rfl
    pend_in_frame := Bool.noConfusion }

/-- SHUTDOWN leaves no buffer, and outside LIVE the invariants ask for none. -/
theorem shutdown : ({ s with buf := [], life := .down } : State).Inv :=
  { h with
    payload_written := Life.noConfusion
    buffer_canonical := nil_wf s.cap
    buffer_exists := fun _ => rfl }

theorem initialise (c : Byte) : (initialise c s).Inv :=
  { h.resetAction with
    pos_le_cap := Nat.zero_le _
    payload_written := fun _ i hi => absurd hi (Nat.not_lt_zero i)
    buffer_canonical := nil_wf c
    buffer_exists := fun _ => rfl
    err_width := errInit_lt_of_wf h.cfg_wf }

theorem openFrame (hr : s.ready = false) : (openFrame s).Inv :=
  { h.resetAction with
    ready_flags := fun e => absurd e (ne_true_of_eq_false hr)
    pend_in_frame := Bool.noConfusion
    pos_in_frame := fun _ => rfl
    ts_width := nowValue_lt s }

theorem holdNibble (n : Nibble) (hr : s.ready = false) (hf : s.started = true) : (holdNibble n s).Inv :=
  { h with
    ready_flags := fun e => absurd e (ne_true_of_eq_false hr)
    nibble_canonical := Bool.noConfusion
    pend_in_frame := fun _ => hf }

theorem markReady (hf : s.started = true) (hx : s.etxSeen = true) (hp : s.hiPend = false) : (markReady s).Inv :=
  { h with ready_flags := fun _ => ⟨hf, hx, hp⟩ }

/-- Below the capacity the position moves up by one, and the byte it passes has just been written (R61). -/
theorem appendByte (v : Byte) (hl : s.life = .live) (hf : s.started = true) (hroom : s.pos < s.cap) : (appendByte v s).Inv :=
  { h with
    pos_le_cap := by
      rw [BitVec.le_def, appendByte_pos_toNat v s hroom]
      exact hroom
    payload_written := fun _ i hi => by
      rw [appendByte_pos_toNat v s hroom] at hi
      rw [appendByte_buf]
      by_cases hpos : i = s.pos.toNat
      · rw [hpos, bufLookup_bufInsert_same, Option.isSome_some]
      · rw [bufLookup_bufInsert_other _ _ _ _ hpos]
        exact h.payload_written hl i (by omega)
    pos_in_frame := fun e => absurd e (ne_false_of_eq_true hf)
    buffer_canonical := bufInsert_wf s.cap s.buf s.pos.toNat v h.buffer_canonical hroom
    buffer_exists := fun hne => absurd hl hne }

theorem receiveByte (b : Byte) (hl : s.life = .live) (hr : s.ready = false) : (receiveByte b s).2.Inv := by
  have hcase := receiveByte_cases b s
  generalize Machine.receiveByte b s = r at hcase
  cases hcase with
  | startMarker => exact h.openFrame hr
  | endMarker => exact h.markEnd
  | noise => exact h
  | invalid => exact h.errorAction
  | mismatched | overflow => exact h.clearPair.errorAction
  | first n _ _ hf => exact h.holdNibble n hr hf
  | matched n _ _ hf _ _ hx => exact h.clearPair.markReady hf hx rfl
  | appended n _ _ hf _ _ _ hroom => exact h.clearPair.appendByte _ hl hf hroom

/-- POLL's loop: no packet is ready before an iteration. -/
theorem drain (script : List HostStep) (hl : s.life = .live) (hr : s.ready = false) : (drain script s).Inv := by
  refine drain_ends (fun t => t.Inv ∧ t.life = .live ∧ t.ready = false) State.Inv ?goesOn ?completes ?nothing ?broken ?host script s
    ⟨h, hl, hr⟩
  case goesOn =>
    rintro b rest t - - ⟨ht, hl, hr⟩ hc
    exact ⟨(ht.setRx rest).receiveByte b hl hr, (receiveByte_life b _).trans hl, receiveByte_ready_of_continued hr hc⟩
  case completes =>
    rintro b rest t - - ⟨ht, hl, hr⟩ -
    exact ((ht.setRx rest).receiveByte b hl hr).setResult _
  case nothing =>
    rintro t - ⟨ht, -⟩
    exact ht.setResult _
  case broken =>
    rintro t - - ⟨ht, -⟩
    exact ht.raiseFault _
  case host =>
    rintro es rest t ⟨ht, hl, hr⟩
    exact ⟨(ht.setScript rest).applyEnvs es, by simpa using hl, by simpa using hr⟩

theorem command {i : Instr} {t : State} (hc : CommandCase i s t) : t.Inv := by
  cases hc with
  | refused _ r => exact h.raiseFault r
  | answered _ r => exact h.setResult r
  | init c => exact (h.initialise c).setResult .unit
  | shutdown => exact h.shutdown.setResult .unit
  | reset => exact h.resetAction.setResult .unit
  | sent p => exact (h.transmit p).setResult .unit
  | polled _ hl hr => exact h.drain s.script hl hr

end

end State.Inv

/-- Settles O55: host steps and every way a command ends keep the invariants. -/
theorem invariantsKeptByEveryStep : Obligations.InvariantsKeptByEveryStep := by
  intro s t h hstep
  cases stepCase_of_step hstep with
  | idle => exact h
  | host es rest => exact (h.setScript rest).applyEnvs es
  | command i rest t _ hc => exact (h.setScript rest).command hc

/-- Settles O54: every field of `State.reset` is closed. -/
theorem invariantsAtCreation : Obligations.InvariantsAtCreation where
  cfg_wf := by decide
  pos_le_cap := Nat.le_refl 0
  ready_flags := Bool.noConfusion
  nibble_canonical := fun _ => rfl
  payload_written := Life.noConfusion
  pend_in_frame := Bool.noConfusion
  pos_in_frame := fun _ => rfl
  buffer_canonical := reset_memory_wf
  buffer_exists := fun _ => rfl
  err_width := Nat.two_pow_pos _
  ts_width := Nat.two_pow_pos _

end Sys2Proof.Machine
end

section
/-! SUPPORT. What the host can see (10_state.md R47): every operation and every step does the same from two states that differ only where no
host looks. -/

namespace Sys2Proof.Machine

/-! ## The buffer after an appended byte -/

theorem bufRead_appendByte (v : Byte) (s : State) (i : Nat) :
    bufRead (appendByte v s) i = if i = s.pos.toNat then v else bufRead s i := by
  rw [bufRead, bufRead, appendByte_buf]
  split
  · rename_i h
    rw [h, bufLookup_bufInsert_same, Option.getD_some]
  · rename_i h
    rw [bufLookup_bufInsert_other _ _ _ _ h]

/-- The appended byte ends the payload. -/
theorem payload_appendByte (v : Byte) (s : State) (h : s.pos < s.cap) : payload (appendByte v s) = payload s ++ [v] := by
  rw [payload, appendByte_pos_toNat v s h, List.range_succ, List.map_append, List.map_singleton, bufRead_appendByte, if_pos rfl, payload]
  congr 1
  refine List.map_congr_left fun i hi => ?_
  rw [bufRead_appendByte, if_neg (List.mem_range.mp hi).ne]

/-! ## Doing the same -/

/-- Two bytes processed alike. -/
def SameByte (r q : ByteStatus × State) : Prop := r.1 = q.1 ∧ SameToHost r.2 q.2

/-- Two iterations of POLL that end alike. -/
inductive SameIteration : Iteration → Iteration → Prop where
  | again {s t : State} (h : SameToHost s t) : SameIteration (.again s) (.again t)
  | done {s t : State} (h : SameToHost s t) : SameIteration (.done s) (.done t)

/-- Two fetches of the same thing. -/
inductive SameFetched : Fetched → Fetched → Prop where
  | idle : SameFetched .idle .idle
  | host {s t : State} (h : SameToHost s t) : SameFetched (.host s) (.host t)
  | run {s t : State} (i : Instr) (h : SameToHost s t) : SameFetched (.run i s) (.run i t)
  | refuse (r : Refusal) : SameFetched (.refuse r) (.refuse r)

namespace SameToHost

section
variable {s t : State} (h : SameToHost s t)
include h

/-! ## What the two states read alike -/

theorem nowValue_eq : nowValue s = nowValue t := by rw [nowValue, nowValue, h.time, h.cfg, h.draws]

theorem nowDraws_eq : nowDraws s = nowDraws t := by rw [nowDraws, nowDraws, h.time, h.draws]

theorem rxAvailable_eq : rxAvailable s = rxAvailable t := by rw [rxAvailable, rxAvailable, h.rxAttached, h.rxClaim, h.rx]

theorem payload_eq (hf : s.started = true) : payload s = payload t := by
  obtain ⟨-, -, -, hpos, -, hbytes⟩ := h.in_frame hf
  rw [payload, payload, ← hpos]
  exact List.map_congr_left fun i hi => hbytes i (List.mem_range.mp hi)

theorem lenView_eq : lenView s = lenView t := by
  rw [lenView, lenView, ← h.ready]
  split
  · rename_i hr
    obtain ⟨-, -, -, hpos, -⟩ := h.in_frame (h.ready_started hr)
    rw [hpos]
  · rfl

theorem dataView_eq (k : Byte) : dataView k s = dataView k t := by
  cases hr : s.ready with
  | false => rw [dataView_of_hidden k s (.inl hr), dataView_of_hidden k t (.inl (h.ready ▸ hr))]
  | true =>
    obtain ⟨-, -, -, hpos, -, hbytes⟩ := h.in_frame (h.ready_started hr)
    by_cases hk : k < s.pos
    · rw [dataView_of_exposed k s hr hk, dataView_of_exposed k t (h.ready ▸ hr) (hpos ▸ hk), hbytes k.toNat hk]
    · have hk' : s.pos ≤ k := BitVec.not_lt.mp hk
      rw [dataView_of_hidden k s (.inr hk'), dataView_of_hidden k t (.inr (hpos ▸ hk'))]

theorem startView_eq : startView s = startView t := by
  cases hf : s.started with
  | false => rw [startView_of_idle s hf, startView_of_idle t (h.started ▸ hf)]
  | true =>
    obtain ⟨-, -, -, -, htime, -⟩ := h.in_frame hf
    rw [startView_of_started s hf, startView_of_started t (h.started ▸ hf), htime]

/-! ## Each write, done to both -/

theorem setResult_eq {r q : OpResult} (e : r = q) : SameToHost (setResult r s) (setResult q t) := { h with result := e }

theorem setResult (r : OpResult) : SameToHost (setResult r s) (setResult r t) := h.setResult_eq rfl

theorem setScript (rest : List HostStep) : SameToHost (setScript rest s) (setScript rest t) := { h with script := rfl }

theorem setRx (rest : List Byte) : SameToHost (setRx rest s) (setRx rest t) := { h with rx := rfl }

theorem raiseFault (r : Fault) : SameToHost (raiseFault r s) (raiseFault r t) :=
  { h with fault := by rw [Machine.raiseFault, Machine.raiseFault, h.fault] }

theorem applyEnv (e : EnvStep) : SameToHost (applyEnv e s) (applyEnv e t) := by
  cases e with
  | arrive bs => exact { h with rx := congrArg (· ++ bs) h.rx }
  | time u => exact { h with time := rfl }
  | loop => exact { h with rx := congrArg₂ (· ++ ·) h.rx h.tx, tx := rfl }
  | attachSink | detachSink => exact { h with txAttached := rfl }
  | attachSource | detachSource => exact { h with rxAttached := rfl }
  | claim k => exact { h with rxClaim := rfl }

omit h in
theorem applyEnvs (es : List EnvStep) {s t : State} (h : SameToHost s t) : SameToHost (applyEnvs es s) (applyEnvs es t) := by
  induction es generalizing s t with
  | nil => exact h
  | cons e rest ih => exact ih (h.applyEnv e)

theorem transmit (p : List Byte) : SameToHost (transmit p s) (transmit p t) := by
  rw [transmit_eq, transmit_eq]
  exact { h with tx := by rw [h.tx, h.cfg] }

theorem resetAction : SameToHost (resetAction s) (resetAction t) :=
  { h with started := rfl, ready := rfl, ready_started := Bool.noConfusion, in_frame := Bool.noConfusion }

theorem errorAction : SameToHost (errorAction s) (errorAction t) :=
  { h.resetAction with errCnt := congrArg₂ errBump h.cfg h.errCnt }

theorem initialise (c : Byte) : SameToHost (initialise c s) (initialise c t) :=
  { h.resetAction with life := rfl, cap := rfl, errCnt := congrArg Config.errInit h.cfg, in_frame := Bool.noConfusion }

theorem shutdown : SameToHost { s with buf := [], life := .down } { t with buf := [], life := .down } :=
  { h with
    life := rfl
    in_frame := fun hf => by
      obtain ⟨hx, hp, hn, hpos, hts, -⟩ := h.in_frame hf
      exact ⟨hx, hp, hn, hpos, hts, fun _ _ => rfl⟩ }

theorem openFrame : SameToHost (openFrame s) (openFrame t) :=
  { h with
    started := rfl
    draws := h.nowDraws_eq
    ready_started := fun _ => rfl
    in_frame := fun _ => ⟨rfl, rfl, rfl, rfl, h.nowValue_eq, fun i hi => absurd hi (Nat.not_lt_zero i)⟩ }

theorem markEnd : SameToHost (markEnd s) (markEnd t) :=
  { h with
    in_frame := fun hf => by
      obtain ⟨-, hrest⟩ := h.in_frame hf
      exact ⟨rfl, hrest⟩ }

theorem holdNibble (n : Nibble) : SameToHost (holdNibble n s) (holdNibble n t) :=
  { h with
    in_frame := fun hf => by
      obtain ⟨hx, -, -, hrest⟩ := h.in_frame hf
      exact ⟨hx, rfl, rfl, hrest⟩ }

theorem clearPair : SameToHost (clearPair s) (clearPair t) :=
  { h with
    in_frame := fun hf => by
      obtain ⟨hx, -, -, hrest⟩ := h.in_frame hf
      exact ⟨hx, rfl, rfl, hrest⟩ }

theorem markReady (hf : s.started = true) : SameToHost (markReady s) (markReady t) :=
  { h with ready := rfl, ready_started := fun _ => hf }

/-- Both buffers get the byte at the same index, and below it they agreed already. -/
theorem appendByte (v : Byte) (hf : s.started = true) (hroom : s.pos < s.cap) : SameToHost (appendByte v s) (appendByte v t) :=
  { h with
    in_frame := fun _ => by
      obtain ⟨hx, hp, hn, hpos, hts, hbytes⟩ := h.in_frame hf
      refine ⟨hx, hp, hn, congrArg (· + 1#8) hpos, hts, fun i hi => ?_⟩
      rw [appendByte_pos_toNat v s hroom] at hi
      rw [bufRead_appendByte, bufRead_appendByte, ← hpos]
      split
      · rfl
      · exact hbytes i (by omega) }

/-! ## PROCESS_BYTE -/

theorem checksumByte (v : Byte) (hf : s.started = true) : SameByte (checksumByte v s) (checksumByte v t) := by
  rw [Machine.checksumByte, Machine.checksumByte, ← h.payload_eq hf]
  split
  · exact ⟨rfl, h.markReady hf⟩
  · exact ⟨rfl, h.errorAction⟩

theorem payloadByte (v : Byte) (hf : s.started = true) : SameByte (payloadByte v s) (payloadByte v t) := by
  obtain ⟨-, -, -, hpos, -⟩ := h.in_frame hf
  rw [Machine.payloadByte, Machine.payloadByte, ← hpos, ← h.cap]
  split
  · rename_i hroom
    exact ⟨rfl, h.appendByte v hf hroom⟩
  · exact ⟨rfl, h.errorAction⟩

theorem completedByte (v : Byte) (hf : s.started = true) : SameByte (completedByte v s) (completedByte v t) := by
  obtain ⟨hx, -⟩ := h.in_frame hf
  rw [Machine.completedByte, Machine.completedByte, ← hx]
  split
  · exact h.checksumByte v hf
  · exact h.payloadByte v hf

theorem symbolByte (n : Nibble) (hf : s.started = true) : SameByte (symbolByte n s) (symbolByte n t) := by
  obtain ⟨-, hp, hn, -⟩ := h.in_frame hf
  rw [Machine.symbolByte, Machine.symbolByte, ← hp, ← hn]
  split
  · exact h.clearPair.completedByte _ hf
  · exact ⟨rfl, h.holdNibble n⟩

theorem receiveByte (b : Byte) : SameByte (receiveByte b s) (receiveByte b t) := by
  rw [Machine.receiveByte, Machine.receiveByte, ← h.cfg, ← h.started]
  split
  · exact ⟨rfl, h.openFrame⟩
  · split
    · exact ⟨rfl, h.markEnd⟩
    · split
      · exact ⟨rfl, h⟩
      · rename_i hidle
        split
        · exact ⟨rfl, h.errorAction⟩
        · exact h.symbolByte _ (by simpa using hidle)

/-! ## POLL -/

theorem pollIteration : SameIteration (pollIteration s) (pollIteration t) := by
  rw [Machine.pollIteration, Machine.pollIteration, ← h.rxAvailable_eq, ← h.rx]
  split
  · exact .done (h.setResult _)
  · split
    · exact .done (h.raiseFault _)
    · rename_i b rest _
      obtain ⟨hstatus, hstate⟩ := (h.setRx rest).receiveByte b
      generalize Machine.receiveByte b (Machine.setRx rest s) = r at hstatus hstate
      generalize Machine.receiveByte b (Machine.setRx rest t) = q at hstatus hstate
      obtain ⟨status, r⟩ := r
      obtain ⟨_, q⟩ := q
      cases hstatus
      cases status with
      | completed => exact .done (hstate.setResult _)
      | continued => exact .again hstate

end

theorem drainQuiet (bound : List Byte) {s t : State} (h : SameToHost s t) : SameToHost (drainQuiet bound s) (drainQuiet bound t) := by
  induction bound generalizing s t with
  | nil =>
    have hi := h.pollIteration
    rw [Machine.drainQuiet, Machine.drainQuiet]
    generalize Machine.pollIteration s = a at hi
    generalize Machine.pollIteration t = b at hi
    cases hi with
    | again hs => exact hs
    | done hs => exact hs
  | cons _ bound ih =>
    have hi := h.pollIteration
    rw [Machine.drainQuiet, Machine.drainQuiet]
    generalize Machine.pollIteration s = a at hi
    generalize Machine.pollIteration t = b at hi
    cases hi with
    | again hs => exact ih hs
    | done hs => exact hs

/-- The bound is the stream, which the two states share. -/
theorem drainQuiet_rx {s t : State} (h : SameToHost s t) : SameToHost (Machine.drainQuiet s.rx s) (Machine.drainQuiet t.rx t) := by
  rw [← h.rx]
  exact h.drainQuiet s.rx

theorem drain (script : List HostStep) {s t : State} (h : SameToHost s t) : SameToHost (drain script s) (drain script t) := by
  induction script generalizing s t with
  | nil => exact h.drainQuiet_rx
  | cons entry rest ih =>
    cases entry with
    | command | call | env => exact h.drainQuiet_rx
    | during es =>
      have hi := ((h.setScript rest).applyEnvs es).pollIteration
      rw [Machine.drain, Machine.drain]
      generalize Machine.pollIteration (Machine.applyEnvs es (Machine.setScript rest s)) = a at hi
      generalize Machine.pollIteration (Machine.applyEnvs es (Machine.setScript rest t)) = b at hi
      cases hi with
      | done hs => exact hs
      | again hs => exact ih hs

/-! ## Operations and steps -/

section
variable {s t : State} (h : SameToHost s t)
include h

theorem gated {i : Instr} {f : State → State} (hg : LiveGated i f) (hf : s.life = .live → SameToHost (f s) (f t)) :
    SameOutcome (exec i s) (exec i t) := by
  rw [hg s, hg t, whenLive, whenLive, ← h.life]
  split
  · rename_i hl
    exact hf hl
  · exact h.raiseFault .notLive

theorem poll : SameOutcome (exec .poll s) (exec .poll t) := by
  refine h.gated poll_gated fun _ => ?_
  rw [← h.ready, ← h.script]
  split
  · exact h.raiseFault _
  · exact h.drain _

theorem send (p : List Byte) : SameOutcome (exec (.send p) s) (exec (.send p) t) := by
  refine h.gated (send_gated p) fun _ => ?_
  rw [← h.txAttached]
  split
  · split
    · exact (h.transmit p).setResult _
    · exact h.setResult _
  · exact h.raiseFault _

theorem init (c : Byte) : SameOutcome (exec (.init c) s) (exec (.init c) t) := by
  rw [Machine.exec, Machine.exec, execInit, execInit, ← h.life]
  split
  · exact (h.initialise c).setResult _
  · exact h.raiseFault _

theorem exec (i : Instr) (hi : i.space = .command) : SameOutcome (exec i s) (exec i t) := by
  cases i
  case init c => exact h.init c
  case shutdown => exact h.gated shutdown_gated fun _ => h.shutdown.setResult _
  case reset => exact h.gated reset_gated fun _ => h.resetAction.setResult _
  case poll => exact h.poll
  case send p => exact h.send p
  case enc n =>
    by_cases hn : n.toNat ≤ 15
    · rw [exec_enc_of_nibble n s hn, exec_enc_of_nibble n t hn]
      exact h.setResult _
    · rw [exec_enc_of_not_nibble n s (Nat.not_le.mp hn), exec_enc_of_not_nibble n t (Nat.not_le.mp hn)]
      exact h.raiseFault _
  case dec => exact h.setResult _
  case crc8 xs =>
    by_cases hx : xs.length ≤ 255
    · rw [exec_crc8_of_fits xs s hx, exec_crc8_of_fits xs t hx]
      exact h.setResult _
    · rw [exec_crc8_of_too_long xs s (Nat.not_le.mp hx), exec_crc8_of_too_long xs t (Nat.not_le.mp hx)]
      exact h.raiseFault _
  case rdReady => exact h.gated rdReady_gated fun _ => h.setResult_eq (congrArg OpResult.flag h.ready)
  case rdLen => exact h.gated rdLen_gated fun _ => h.setResult_eq h.lenView_eq
  case rdData k => exact h.gated (rdData_gated k) fun _ => h.setResult_eq (h.dataView_eq k)
  case rdErr => exact h.gated rdErr_gated fun _ => h.setResult_eq (congrArg OpResult.count h.errCnt)
  case rdStarted => exact h.gated rdStarted_gated fun _ => h.setResult_eq (congrArg OpResult.flag h.started)
  case rdTstart => exact h.gated rdTstart_gated fun _ => h.setResult_eq h.startView_eq
  case reserved00 | reservedF0 | illegalLowNibble => exact h.raiseFault _
  all_goals cases hi

theorem fetch : SameFetched (fetch s) (fetch t) := by
  rw [Machine.fetch, Machine.fetch, ← h.script]
  split
  · exact .idle
  · exact .host ((h.setScript _).applyEnv _)
  · exact .host ((h.setScript _).applyEnvs _)
  · split
    · exact .run _ (h.setScript _)
    · exact .refuse _
  · rw [fetchCommand, fetchCommand, ← h.cfg]
    split
    · exact .run _ (h.setScript _)
    · exact .host (h.setScript _)
    · exact .refuse _
    · exact .refuse _

theorem step : SameOutcome (step s) (step t) := by
  rw [Machine.step, Machine.step, ← h.fault]
  split
  · rfl
  · have hfetch := h.fetch
    have hcommand := @fetch_run_command s
    generalize Machine.fetch s = a at hfetch hcommand
    generalize Machine.fetch t = b at hfetch
    cases hfetch with
    | idle => exact h
    | host hs => exact hs
    | run i hs => exact hs.exec i (hcommand rfl)
    | refuse r => rfl

end

end SameToHost

/-- Settles O59: the fetch takes the same entry from both scripts, and what it runs does the same to both. -/
theorem stepKeepsSameToHost : Obligations.StepKeepsSameToHost := fun _ _ h => h.step

/-! ## Runs -/

section
variable (M : Host.Core) (k : Nat) {s t : M.State}

theorem run_succ_of_next (h : M.step s = .next t) : M.run (k + 1) s = M.run k t := by
  rw [Host.Core.run, h]

theorem run_succ_of_fault {r : M.Fault} (h : M.step s = .fault r) : M.run (k + 1) s = .fault r := by
  rw [Host.Core.run, h]

theorem run_succ_of_refused {r : M.Refusal} (h : M.step s = .refused r) : M.run (k + 1) s = .refused r := by
  rw [Host.Core.run, h]

end

/-- Runs of any length from two such states end alike, by induction on the length. -/
theorem run_sameOutcome (k : Nat) {s t : State} (h : SameToHost s t) :
    SameOutcome (Host.Core.run Sys2Proof.core k s) (Host.Core.run Sys2Proof.core k t) := by
  induction k generalizing s t with
  | zero => exact h
  | succ k ih =>
    have hstep := h.step
    cases hs : step s <;> cases ht : step t <;> rw [hs, ht] at hstep
    case next.next =>
      rw [run_succ_of_next core k hs, run_succ_of_next core k ht]
      exact ih hstep
    case fault.fault =>
      rw [run_succ_of_fault core k hs, run_succ_of_fault core k ht]
      exact hstep
    case refused.refused =>
      rw [run_succ_of_refused core k hs, run_succ_of_refused core k ht]
      exact hstep
    all_goals cases hstep

/-- Settles O56: outside a frame the fields that differ are the ones no host looks at. -/
theorem idleStatesAreEquivalent : Obligations.IdleStatesAreEquivalent := by
  intro s e h n p u m k _ hidle hready
  refine run_sameOutcome k ?_
  exact
    { cfg := rfl, life := rfl, cap := rfl, started := rfl, ready := rfl, errCnt := rfl, fault := rfl, rx := rfl, rxAttached := rfl
      rxClaim := rfl, tx := rfl, txAttached := rfl, time := rfl, script := rfl, result := rfl, draws := rfl
      ready_started := fun hr => absurd hr (ne_true_of_eq_false hready)
      in_frame := fun hf => absurd hf (ne_true_of_eq_false hidle) }

end Sys2Proof.Machine
end

section
/-! SUPPORT. The wire-byte rows against PROCESS_BYTE, and the transition table (43_receive_fsm.md sections 1 to 4). -/

namespace Sys2Proof.Machine

/-! ## The row of a byte's class is PROCESS_BYTE -/

theorem exec_classify (b : Byte) (s : State) : exec (classify s.cfg s.started b) s = .next (finishByte (receiveByte b s)) := by
  by_cases hs : b = s.cfg.stx
  · rw [hs, classify_stx, receiveByte, if_pos rfl]
    rfl
  by_cases he : b = s.cfg.etx
  · have hne : s.cfg.etx ≠ s.cfg.stx := he ▸ hs
    rw [he, classify_etx _ _ hne, receiveByte, if_neg hne, if_pos rfl]
    rfl
  cases hf : s.started with
  | false => rw [classify_noise _ b hs he, exec_wNoise_of_idle b s hf, receiveByte_of_noise b s hs he hf]
  | true =>
    cases hv : symbolValid b with
    | false => rw [classify_invalid _ b hs he hv, exec_wBad_of_started b s hf, receiveByte_of_invalid b s hs he hf hv]
    | true =>
      rw [classify_valid _ b hs he hv, exec_symbolRow _ (symbolRow_mem (hiNibble b)) s,
        symbolInFrame_eq _ b s hs he (decSymbol_of_valid b hv)]

/-- Settles O20: both are the one shared function, in the order of R85. -/
theorem processByteRunsItsClass : Obligations.ProcessByteRunsItsClass := fun b s _ =>
  ⟨_, exec_processByte b s, exec_classify b s⟩

/-- Settles O21: the row is `openFrame`, whose time is `Now()`'s. -/
theorem startMarkerOpensFrame : Obligations.StartMarkerOpensFrame := by
  intro s
  refine ⟨nowValue s, nowDraws s, rfl, nowValue_lt s, fun u hu => ?_⟩
  rw [nowValue, hu]

/-! ## Rows outside their class -/

section
variable (b : Byte) (n : Nibble) (s : State)

theorem exec_wBad_of_idle (hf : s.started = false) : exec (.wBad b) s = .next (finishByte (noiseByte s)) := by
  rw [exec, execWBad, if_neg (ne_true_of_eq_false hf)]

theorem exec_wNoise_of_started (hf : s.started = true) : exec (.wNoise b) s = exec (.processByte b) s :=
  congrArg (Host.Outcome.next ∘ finishByte) (if_pos hf)

theorem symbolInFrame_of_idle (hf : s.started = false) : symbolInFrame n s = noiseByte s := by
  rw [symbolInFrame, if_neg (ne_true_of_eq_false hf)]

end

/-- Settles O24: outside a frame these rows are `noiseByte`, as PROCESS_BYTE is on a byte that is no marker; inside one W_NOISE is
PROCESS_BYTE. -/
theorem wireRowsOutsideTheirClass : Obligations.WireRowsOutsideTheirClass := by
  intro b s
  refine ⟨fun hf => ⟨exec_wBad_of_idle b s hf, fun hw => ?bad, fun r hr => ⟨?symbol, fun hc => ?symbolByte⟩⟩, exec_wNoise_of_started b s⟩
  case bad =>
    obtain ⟨⟨hs, he⟩, -⟩ : (b ≠ s.cfg.stx ∧ b ≠ s.cfg.etx) ∧ symbolValid b = false := by simpa [Instr.wellFormed] using hw
    rw [exec_processByte, receiveByte_of_noise b s hs he hf, exec_wBad_of_idle b s hf]
  case symbol =>
    rw [exec_symbolRow r hr s, symbolInFrame_of_idle r.2 s hf]
    rfl
  case symbolByte =>
    have hlegal := legalMarkers_of_wf hc
    rw [exec_processByte, receiveByte_of_noise _ s (encSymbol_ne_stx hlegal r.2) (encSymbol_ne_etx hlegal r.2) hf, exec_symbolRow r hr s,
      symbolInFrame_of_idle r.2 s hf]

/-! ## The receive states -/

theorem rxPhase_of_idle {s : State} (hr : s.ready = false) (hf : s.started = false) : rxPhase s = .idle := by
  simp [rxPhase, hr, hf]

theorem rxPhase_of_ready {s : State} (hr : s.ready = true) : rxPhase s = .complete := by
  simp [rxPhase, hr]

theorem rxPhase_of_started {s : State} (hr : s.ready = false) (hf : s.started = true) :
    rxPhase s = if s.etxSeen then .awaitingChecksum else .inFrame := by
  simp [rxPhase, hr, hf]

/-- The error action ends in Idle with one more error counted, whatever the row's result. -/
theorem errorAction_ends (c : ByteStatus) (s : State) :
    rxPhase (finishByte (c, errorAction s)) = .idle ∧ (finishByte (c, errorAction s)).errCnt = errBump s.cfg s.errCnt := ⟨rfl, rfl⟩

/-- The symbol row of the transition table, from `s` inside a frame to `t`. -/
def SymbolTransition (s t : State) : Prop :=
  (s.hiPend = false → rxPhase t = rxPhase s ∧ t.errCnt = s.errCnt) ∧
  (s.hiPend = true → s.etxSeen = false →
    (rxPhase t = .inFrame ∧ t.errCnt = s.errCnt) ∨ (rxPhase t = .idle ∧ t.errCnt = errBump s.cfg s.errCnt)) ∧
  (s.hiPend = true → s.etxSeen = true →
    (rxPhase t = .complete ∧ t.errCnt = s.errCnt) ∨ (rxPhase t = .idle ∧ t.errCnt = errBump s.cfg s.errCnt))

theorem symbolTransition (n : Nibble) (s : State) (hr : s.ready = false) (hf : s.started = true) :
    SymbolTransition s (finishByte (symbolInFrame n s)) := by
  refine ⟨fun hp => ?first, fun hp hx => ?payload, fun hp hx => ?checksum⟩
  case first =>
    rw [symbolInFrame_of_first n s hf hp]
    exact ⟨rfl, rfl⟩
  case payload =>
    by_cases hroom : s.pos < s.cap
    · rw [symbolInFrame_of_room n s hf hp hx hroom]
      exact .inl ⟨(rxPhase_of_started hr hf).trans (if_neg (ne_true_of_eq_false hx)), rfl⟩
    · rw [symbolInFrame_of_full n s hf hp hx hroom]
      exact .inr (errorAction_ends _ s)
  case checksum =>
    by_cases hsum : joinNibbles s.hiNib n = crcOf (payload s)
    · rw [symbolInFrame_of_match n s hf hp hx hsum]
      exact .inl ⟨rxPhase_of_ready rfl, rfl⟩
    · rw [symbolInFrame_of_mismatch n s hf hp hx hsum]
      exact .inr (errorAction_ends _ s)

/-- Settles O31: a clause per column of the table. -/
theorem receiveTransitions : Obligations.ReceiveTransitions := by
  intro s hr
  refine ⟨⟨_, rfl, ?start, rfl⟩, ⟨_, rfl, rfl, ?stop⟩, fun b hf => ?noise, fun b hf => ?bad, fun r hmem hf => ?symbol⟩
  case start => exact rxPhase_of_started hr rfl
  case stop =>
    cases hf : s.started with
    | false => exact rxPhase_of_idle hr hf
    | true => exact rxPhase_of_started hr hf
  case noise => exact ⟨_, exec_wNoise_of_idle b s hf, rxPhase_of_idle hr hf, rfl⟩
  case bad => exact ⟨_, exec_wBad_of_started b s hf, errorAction_ends _ s⟩
  case symbol => exact ⟨_, exec_symbolRow r hmem s, symbolTransition r.2 s hr hf⟩

/-- Settles O32, by the cases of PROCESS_BYTE: the three violations are the error action, and no other case writes the counter. -/
theorem violationsCountOne : Obligations.ViolationsCountOne := by
  intro b s
  refine ⟨_, exec_processByte b s, ?_⟩
  have h := receiveByte_cases b s
  generalize receiveByte b s = r at h
  cases h with
  | startMarker | endMarker | noise | first | matched | appended => exact .inl rfl
  | invalid | mismatched | overflow => exact .inr rfl

end Sys2Proof.Machine
end

section
/-! SUPPORT. One step, by the entry of the script that it takes (44_host_operations.md section 5, 30_encoding.md section 5), and the host
steps that stand inside a POLL. -/

namespace Sys2Proof.Machine

/-! ## A step, by what it fetches -/

section
variable {s t : State} (hf : s.fault = none)
include hf

theorem step_of_run {i : Instr} (h : fetch s = .run i t) : step s = exec i t := by rw [step, hf, h]

theorem step_of_host (h : fetch s = .host t) : step s = .next t := by rw [step, hf, h]

theorem step_of_refuse {r : Refusal} (h : fetch s = .refuse r) : step s = .refused r := by rw [step, hf, h]

theorem step_of_idle (h : fetch s = .idle) : step s = .next s := by rw [step, hf, h]

theorem step_env {e : EnvStep} {rest : List HostStep} (hs : s.script = .env e :: rest) :
    step s = .next (applyEnv e (setScript rest s)) := step_of_host hf (by rw [fetch, hs])

theorem step_during {es : List EnvStep} {rest : List HostStep} (hs : s.script = .during es :: rest) :
    step s = .next (applyEnvs es (setScript rest s)) := step_of_host hf (by rw [fetch, hs])

end

section
variable {s : State} {bs : List Byte} {rest : List HostStep} (hs : s.script = .command bs :: rest)
include hs

theorem fetch_of_decoded {i : Instr} {more : List Byte} (hd : decode s.cfg .command bs = .ok i more) :
    fetch s = .run i (setScript (putBack more rest) s) := by
  simp only [fetch, hs, fetchCommand, hd]

theorem fetch_of_missingOperand {op : Nibble} (hd : decode s.cfg .command bs = .missingOperand op) :
    fetch s = .refuse .truncatedCommand := by
  simp only [fetch, hs, fetchCommand, hd]

end

theorem fetch_call {s : State} {i : Instr} {rest : List HostStep} (hs : s.script = .call i :: rest) :
    fetch s = if i.space = .command then .run i (setScript rest s) else .refuse .internalOperation := by
  rw [fetch, hs]

/-- What is left of a chunk of command bytes comes next, unless nothing is (log 23). -/
theorem putBack_eq (bs : List Byte) (rest : List HostStep) : putBack bs rest = if bs = [] then rest else .command bs :: rest := by
  cases bs <;> rfl

/-- Settles O52: a clause per entry the script can start with, and per answer of the decoder. -/
theorem stepRunsDecodedInstruction : Obligations.StepRunsDecodedInstruction := by
  refine ⟨fun s bs rest i more hf hs hd => ?decoded, fun s rest i hf hs hi => ?called, fun s rest i hf hs hi => ?internal,
    fun s bs rest op hf hs hd => ?truncated, fun s rest hf hs => ?emptyChunk, fun s hf hs => ?emptyScript⟩
  case decoded =>
    rw [← putBack_eq]
    exact step_of_run hf (fetch_of_decoded hs hd)
  case called => exact step_of_run hf ((fetch_call hs).trans (if_pos hi))
  case internal => exact step_of_refuse hf ((fetch_call hs).trans (if_neg hi))
  case truncated => exact step_of_refuse hf (fetch_of_missingOperand hs hd)
  case emptyChunk => exact step_of_host hf (by rw [fetch, hs]; rfl)
  case emptyScript => exact step_of_idle hf (by rw [fetch, hs])

/-! ## Host steps -/

/-- Host steps do not look at the script. -/
theorem setScript_applyEnv (rest : List HostStep) (e : EnvStep) (s : State) :
    setScript rest (applyEnv e s) = applyEnv e (setScript rest s) := by
  cases e <;> rfl

/-- Settles O53: each host step is its update of the interfaces, and a `during` entry does its first step and then the others. -/
theorem hostStepsActOnInterfaces : Obligations.HostStepsActOnInterfaces := by
  intro s rest hf
  refine ⟨fun _ => step_env hf, fun _ => step_env hf, step_env hf, step_env hf, step_env hf, step_env hf, step_env hf,
    fun _ => step_env hf, step_during hf, fun e es hs => ?_⟩
  have hfirst : step { s with script := .env e :: .during es :: rest } = .next (applyEnv e (setScript (.during es :: rest) s)) :=
    step_of_host hf rfl
  have hfault : (applyEnv e (setScript (.during es :: rest) s)).fault = none := by rwa [applyEnv_fault]
  refine ⟨_, hfirst, ?_⟩
  rw [step_during hf hs, step_during hfault (applyEnv_script e _), setScript_applyEnv]
  rfl

end Sys2Proof.Machine
end

section
/-! SUPPORT. POLL, by what each iteration of its loop finds (44_host_operations.md section 1). -/

namespace Sys2Proof.Machine

/-! ## One iteration -/

section
variable {s : State}

theorem pollIteration_of_nothing (h : rxAvailable s ≤ 0) : pollIteration s = .done (setResult (.flag false) s) := if_pos h

theorem pollIteration_of_broken (h : 0 < rxAvailable s) (hr : s.rx = []) : pollIteration s = .done (raiseFault .transport s) := by
  rw [pollIteration, if_neg (not_le.mpr h), hr]

section
variable {b : Byte} {rest : List Byte} (h : 0 < rxAvailable s) (hr : s.rx = b :: rest)
include h hr

theorem pollIteration_of_completed (hc : (receiveByte b (setRx rest s)).1 = .completed) :
    pollIteration s = .done (setResult (.flag true) (receiveByte b (setRx rest s)).2) := by
  rw [pollIteration, if_neg (not_le.mpr h), hr]
  dsimp only
  generalize receiveByte b (setRx rest s) = r at hc ⊢
  obtain ⟨_, t⟩ := r
  cases hc
  rfl

theorem pollIteration_of_continued (hc : (receiveByte b (setRx rest s)).1 = .continued) :
    pollIteration s = .again (receiveByte b (setRx rest s)).2 := by
  rw [pollIteration, if_neg (not_le.mpr h), hr]
  dsimp only
  generalize receiveByte b (setRx rest s) = r at hc ⊢
  obtain ⟨_, t⟩ := r
  cases hc
  rfl

end

theorem drainQuiet_of_broken (h : 0 < rxAvailable s) (hr : s.rx = []) : drainQuiet s.rx s = raiseFault .transport s := by
  rw [drainQuiet_eq, pollIteration_of_broken h hr]

end

/-! ## The loop with an interleaving entry next -/

section
variable {s t u : State} {es : List EnvStep} {rest : List HostStep} (hu : applyEnvs es (setScript rest s) = u)
include hu

theorem drain_of_done (h : pollIteration u = .done t) : drain (.during es :: rest) s = t := by
  rw [drain, hu, h]

theorem drain_of_again (h : pollIteration u = .again t) : drain (.during es :: rest) s = drain rest t := by
  rw [drain, hu, h]

end

/-- An iteration takes no entry off the script. -/
theorem pollIteration_again_script {s t : State} (h : pollIteration s = .again t) : t.script = s.script := by
  have hc := pollIteration_cases s
  rw [h] at hc
  cases hc
  simp

/-- Once nothing interleaves any more the rest of the loop is the quiet one. -/
theorem drain_of_last_entry {s u : State} {es : List EnvStep} {rest : List HostStep} (hu : applyEnvs es (setScript rest s) = u)
    (hq : u.quiet = true) : drain (.during es :: rest) s = drainQuiet u.rx u := by
  have hscript : u.script = rest := by simp [← hu]
  rw [drainQuiet_eq]
  cases hp : pollIteration u with
  | done t => exact drain_of_done hu hp
  | again t =>
    have ht : t.script = u.script := pollIteration_again_script hp
    have htq : t.quiet = true := by rwa [State.quiet, ht]
    calc drain (.during es :: rest) s
        = drain t.script t := by rw [drain_of_again hu hp, ht, hscript]
      _ = drainQuiet t.rx t := drain_quiet t htq

/-- PROCESS_BYTE writes its result into `result` and nothing else of the model's, so the old result put back gives the state after the byte. -/
theorem setResult_finishByte (b : Byte) (s : State) : setResult s.result (finishByte (receiveByte b s)) = (receiveByte b s).2 := by
  calc setResult s.result (finishByte (receiveByte b s))
      = setResult (receiveByte b s).2.result (receiveByte b s).2 := by rw [receiveByte_result]; rfl
    _ = (receiveByte b s).2 := rfl

/-- After a byte that completes no packet the loop is a POLL from the state after the byte. -/
theorem exec_poll_of_continued (b : Byte) (s : State) (hl : s.life = .live) (hr : s.ready = false)
    (hc : (receiveByte b s).1 = .continued) :
    exec .poll (receiveByte b s).2 = .next (drain s.script (receiveByte b s).2) := by
  rw [exec_poll_live _ (by rwa [receiveByte_life]) (receiveByte_ready_of_continued hr hc), receiveByte_script]

/-- Settles O57: the entry's steps are those of the step it would be by itself, and each clause is one end of the iteration after it. -/
theorem pollInterleavesHostSteps : Obligations.PollInterleavesHostSteps := by
  intro s u es rest hl hr hf hs hu
  have hpoll : exec .poll s = .next (drain (.during es :: rest) s) := hs ▸ exec_poll_live s hl hr
  have hentry : applyEnvs es (setScript rest s) = u := Host.Outcome.next.inj ((step_during hf hs).symm.trans hu)
  rw [hpoll]
  refine ⟨fun hn => ?nothing, fun hp hrx => ?broken, fun b bs t hp hrx ht => ⟨fun hc => ?continued, fun hc => ?completed⟩⟩
  case nothing =>
    rw [drain_of_done hentry (pollIteration_of_nothing hn)]
    rfl
  case broken =>
    have hfault : u.fault = none := by simpa [← hentry] using hf
    rw [drain_of_done hentry (pollIteration_of_broken hp hrx), raiseFault_eq _ u hfault]
  case continued =>
    obtain rfl := Host.Outcome.next.inj ht
    have hstatus : (receiveByte b (setRx bs u)).1 = .continued := OpResult.status.inj hc
    have hul : (setRx bs u).life = .live := by simpa [← hentry] using hl
    have hur : (setRx bs u).ready = false := by simpa [← hentry] using hr
    have hscript : (setRx bs u).script = rest := by simp [← hentry]
    have hback : exec .poll (setResult u.result (finishByte (receiveByte b (setRx bs u)))) =
        exec .poll (receiveByte b (setRx bs u)).2 := congrArg (exec .poll) (setResult_finishByte b (setRx bs u))
    rw [drain_of_again hentry (pollIteration_of_continued hp hrx hstatus)]
    refine Eq.trans ?_ hback.symm
    rw [exec_poll_of_continued b _ hul hur hstatus, hscript]
  case completed =>
    obtain rfl := Host.Outcome.next.inj ht
    have hstatus : (receiveByte b (setRx bs u)).1 = .completed := OpResult.status.inj hc
    rw [drain_of_done hentry (pollIteration_of_completed hp hrx hstatus)]
    rfl

/-- Settles O40: after the entry the POLL is the quiet loop, which is the POLL of the state the bytes had arrived in. -/
theorem arrivalDuringPoll : Obligations.ArrivalDuringPoll := by
  intro s bs rest hl hr hs hq
  let u : State := applyEnvs [.arrive bs] (setScript rest s)
  calc exec .poll s
      = .next (drain (.during [.arrive bs] :: rest) s) := hs ▸ exec_poll_live s hl hr
    _ = .next (drainQuiet u.rx u) := congrArg _ (drain_of_last_entry rfl hq)
    _ = .next (drain u.script u) := congrArg _ (drain_quiet u hq).symm
    _ = exec .poll u := (exec_poll_live u hl hr).symm

end Sys2Proof.Machine
end

section
/-! SUPPORT. POLL of a listening state, as an induction over the stream, and what follows for its result, its frame, a lying transport and a
split stream (44_host_operations.md section 1). -/

namespace Sys2Proof.Machine

/-! ## The quiet POLL -/

section
variable {s : State} (hl : s.life = .live) (hr : s.ready = false) (hq : s.quiet = true)
include hl hr hq

theorem exec_poll_of_quiet : exec .poll s = .next (drainQuiet s.rx s) := by
  rw [exec_poll_live s hl hr, drain_quiet s hq]

theorem exec_poll_of_nothing (h : rxAvailable s ≤ 0) : exec .poll s = .next { s with result := .flag false } := by
  rw [exec_poll_of_quiet hl hr hq, drainQuiet_nothing s h]
  rfl

end

/-- "An unattached source answers 0" (D15). -/
theorem rxAvailable_of_detached {s : State} (h : s.rxAttached = false) : rxAvailable s = 0 := if_neg (ne_true_of_eq_false h)

/-- Settles O34: the first iteration ends the loop. -/
theorem pollWithNothingIsNoOp : Obligations.PollWithNothingIsNoOp := fun _ hl hr hq =>
  ⟨exec_poll_of_nothing hl hr hq, fun h => exec_poll_of_nothing hl hr hq (rxAvailable_of_detached h).le⟩

/-! ## Listening states -/

theorem listens_iff (s : State) : s.listens = true ↔ s.life = .live ∧ s.ready = false ∧ s.honest = true ∧ s.quiet = true := by
  simp [State.listens, and_assoc]

theorem exec_poll_of_listens {s : State} (h : s.listens = true) : exec .poll s = .next (drainQuiet s.rx s) := by
  obtain ⟨hl, hr, -, hq⟩ := (listens_iff s).mp h
  exact exec_poll_of_quiet hl hr hq

theorem rxAvailable_of_listens (s : State) (h : s.listens = true) : rxAvailable s = (s.rx.length : Int) := by
  obtain ⟨-, -, hh, -⟩ := (listens_iff s).mp h
  exact rxAvailable_honest s hh

theorem rxAvailable_pos_of_cons (s : State) (h : s.listens = true) {b : Byte} {rest : List Byte} (hr : s.rx = b :: rest) :
    0 < rxAvailable s := by
  rw [rxAvailable_of_listens s h, hr, List.length_cons]
  omega

/-- Only the stream changes between two reads of a quiet POLL, so a byte that completes no packet leaves a listening state. -/
theorem receiveByte_listens (b : Byte) (s : State) (h : s.listens = true) (hc : (receiveByte b s).1 = .continued) :
    (receiveByte b s).2.listens = true := by
  rw [listens_iff] at h ⊢
  obtain ⟨hl, hr, hh, hq⟩ := h
  refine ⟨by rwa [receiveByte_life], receiveByte_ready_of_continued hr hc, ?_, ?_⟩
  · rwa [State.honest, receiveByte_rxAttached, receiveByte_rxClaim]
  · rwa [State.quiet, receiveByte_script]

/-- POLL's loop over an honest source: `P` holds before every read, `Q` of the state POLL leaves. -/
theorem listening_drain (P Q : State → Prop)
    (goesOn : ∀ b rest s, s.listens = true → s.rx = b :: rest → P s → (receiveByte b (setRx rest s)).1 = .continued →
      P (receiveByte b (setRx rest s)).2)
    (completes : ∀ b rest s, s.listens = true → s.rx = b :: rest → P s → (receiveByte b (setRx rest s)).1 = .completed →
      Q (setResult (.flag true) (receiveByte b (setRx rest s)).2))
    (ends : ∀ s, s.listens = true → s.rx = [] → P s → Q (setResult (.flag false) s)) (s : State) (hs : s.listens = true) (h : P s) :
    Q (drainQuiet s.rx s) := by
  refine drainQuiet_ends (fun t => t.listens = true ∧ P t) Q ?goesOn ?completes ?nothing ?broken s ⟨hs, h⟩
  case goesOn =>
    rintro b rest t - hr ⟨ht, hP⟩ hc
    exact ⟨receiveByte_listens b (setRx rest t) ht hc, goesOn b rest t ht hr hP hc⟩
  case completes =>
    rintro b rest t - hr ⟨ht, hP⟩ hc
    exact completes b rest t ht hr hP hc
  case nothing =>
    rintro t hn ⟨ht, hP⟩
    rw [rxAvailable_of_listens t ht] at hn
    exact ends t ht (List.length_eq_zero_iff.mp (by omega)) hP
  case broken =>
    rintro t hp hr ⟨ht, -⟩
    simp [rxAvailable_of_listens t ht, hr] at hp

/-- Settles O35: no read of an honest source is broken, and a packet is ready exactly after the byte that completes it. -/
theorem pollReturnsTrueExactlyOnCompletion : Obligations.PollReturnsTrueExactlyOnCompletion := by
  intro s hs
  refine ⟨_, exec_poll_of_listens hs, ?_⟩
  refine listening_drain (fun t => t.fault = s.fault) (fun t => t.fault = s.fault ∧ ((t.result = .flag true ∧ t.ready = true) ∨
    (t.result = .flag false ∧ t.ready = false ∧ t.rx = []))) ?goesOn ?completes ?ends s hs rfl
  case goesOn =>
    intro b rest t _ _ ht _
    rwa [receiveByte_fault]
  case completes =>
    intro b rest t _ _ ht hc
    exact ⟨(receiveByte_fault b _).trans ht, .inl ⟨rfl, receiveByte_ready_of_completed hc⟩⟩
  case ends =>
    intro t hl hrx ht
    obtain ⟨-, hr, -⟩ := (listens_iff t).mp hl
    exact ⟨ht, .inr ⟨rfl, hr, hrx⟩⟩

/-! ## The frame of POLL -/

/-- What a quiet POLL of `s` has changed so far is the receiver, below the capacity, and the stream, of which it has read a part. -/
structure WithinPoll (s t : State) : Prop where
  stream : ∃ read, s.rx = read ++ t.rx
  buffer : ∀ i, s.cap.toNat ≤ i → bufLookup t.buf i = bufLookup s.buf i
  rest : t.cfg = s.cfg ∧ t.life = s.life ∧ t.cap = s.cap ∧ t.rxAttached = s.rxAttached ∧ t.rxClaim = s.rxClaim ∧ t.tx = s.tx
    ∧ t.txAttached = s.txAttached ∧ t.time = s.time ∧ t.script = s.script

/-- A byte is written below the capacity or not at all (20_memory.md R61). -/
theorem receiveByte_buf_above (b : Byte) (s : State) (i : Nat) (hi : s.cap.toNat ≤ i) :
    bufLookup (receiveByte b s).2.buf i = bufLookup s.buf i := by
  have h := receiveByte_cases b s
  generalize receiveByte b s = r at h
  cases h with
  | startMarker | endMarker | noise | invalid | first | matched | mismatched | overflow => rfl
  | appended n _ _ _ _ _ _ hroom =>
    have hlt : s.pos.toNat < s.cap.toNat := hroom
    exact bufLookup_bufInsert_other _ _ _ _ (by rw [clearPair_pos]; omega)

theorem WithinPoll.receiveByte {s t : State} (h : WithinPoll s t) {b : Byte} {rest : List Byte} (hr : t.rx = b :: rest) :
    WithinPoll s (receiveByte b (setRx rest t)).2 where
  stream := by
    obtain ⟨read, hread⟩ := h.stream
    exact ⟨read ++ [b], by rw [hread, hr, receiveByte_rx, setRx_rx, List.append_assoc, List.singleton_append]⟩
  buffer i hi := by
    obtain ⟨-, -, hcap, -⟩ := h.rest
    rw [receiveByte_buf_above b _ i (by rwa [setRx_cap, hcap]), setRx_buf, h.buffer i hi]
  rest := by simpa using h.rest

/-- Settles O36: every byte keeps the frame, and so do a result and the fault. -/
theorem pollFrame : Obligations.PollFrame := by
  intro s hl hr hq
  have hstart : WithinPoll s s := ⟨⟨[], rfl⟩, fun _ _ => rfl, rfl, rfl, rfl, rfl, rfl, rfl, rfl, rfl, rfl⟩
  have hend : WithinPoll s (drainQuiet s.rx s) :=
    drainQuiet_keeps (WithinPoll s) (fun _ _ _ hrx h => h.receiveByte hrx) (fun _ _ h => { h with }) (fun _ h => { h with })
      s.rx s hstart
  exact ⟨_, exec_poll_of_quiet hl hr hq, hend.stream, hend.buffer, hend.rest⟩

/-! ## The loop beside an update that PROCESS_BYTE does not read -/

section
variable {f : State → State} (hf : Unread f) {s : State} {b : Byte} {rest more : List Byte} (h : 0 < rxAvailable (f s))
  (hr : (f s).rx = b :: more) (hset : setRx more (f s) = f (setRx rest s))
include hf h hr hset

/-- The update before the read is the update after it. -/
theorem drainQuiet_unread_continued (hc : (receiveByte b (setRx rest s)).1 = .continued) :
    drainQuiet (f s).rx (f s) = drainQuiet (f (receiveByte b (setRx rest s)).2).rx (f (receiveByte b (setRx rest s)).2) := by
  have hbyte := receiveByte_unread hf b (setRx rest s)
  rw [← hset] at hbyte
  rw [drainQuiet_goesOn (f s) b more h hr (by rw [hbyte]; exact hc), hbyte]

theorem drainQuiet_unread_completed (hc : (receiveByte b (setRx rest s)).1 = .completed) :
    drainQuiet (f s).rx (f s) = setResult (.flag true) (f (receiveByte b (setRx rest s)).2) := by
  have hbyte := receiveByte_unread hf b (setRx rest s)
  rw [← hset] at hbyte
  rw [drainQuiet_completes (f s) b more h hr (by rw [hbyte]; exact hc), hbyte]

end

theorem setResult_unread (r : OpResult) : Unread (setResult r) := by
  constructor <;> intros <;> rfl

/-- POLL overwrites the last result, so what it was does not show. -/
theorem drainQuiet_setResult (r : OpResult) (s : State) (h : s.listens = true) :
    drainQuiet (setResult r s).rx (setResult r s) = drainQuiet s.rx s := by
  let d := drainQuiet (setResult r s).rx (setResult r s)
  refine listening_drain (fun t => drainQuiet (setResult r t).rx (setResult r t) = d) (fun u => d = u) ?goesOn ?completes ?ends s h rfl
  case goesOn =>
    intro b rest t ht hr hd hc
    rw [← hd, drainQuiet_unread_continued (setResult_unread r) (rxAvailable_pos_of_cons (setResult r t) ht hr) hr rfl hc]
  case completes =>
    intro b rest t ht hr hd hc
    rw [← hd, drainQuiet_unread_completed (setResult_unread r) (rxAvailable_pos_of_cons (setResult r t) ht hr) hr rfl hc]
    rfl
  case ends =>
    intro t ht hr hd
    have hnone : rxAvailable (setResult r t) ≤ 0 := by
      rw [rxAvailable_of_listens (setResult r t) ht, setResult_rx, hr]
      rfl
    rw [← hd, drainQuiet_nothing _ hnone]
    rfl

theorem exec_poll_setResult {s : State} (h : s.listens = true) (r : OpResult) : exec .poll (setResult r s) = exec .poll s := by
  have hset : (setResult r s).listens = true := h
  rw [exec_poll_of_listens hset, exec_poll_of_listens h, drainQuiet_setResult r s h]

/-- Settles O38: the row is PROCESS_BYTE on the head byte, and the result it leaves does not show in the POLL from there. -/
theorem pollRunsRowsByteByByte : Obligations.PollRunsRowsByteByByte := by
  intro s t b bs hs _ hr ht
  have hav := rxAvailable_pos_of_cons s hs hr
  obtain rfl := Host.Outcome.next.inj ((exec_classify b (setRx bs s)).symm.trans ht)
  refine ⟨fun hc => ?continued, fun hc => ?completed⟩
  case continued =>
    have hstatus : (receiveByte b (setRx bs s)).1 = .continued := OpResult.status.inj hc
    have hnext : (receiveByte b (setRx bs s)).2.listens = true := receiveByte_listens b (setRx bs s) hs hstatus
    rw [finishByte, exec_poll_setResult hnext, exec_poll_of_listens hnext, exec_poll_of_listens hs, drainQuiet_goesOn s b bs hav hr hstatus]
  case completed =>
    have hstatus : (receiveByte b (setRx bs s)).1 = .completed := OpResult.status.inj hc
    rw [exec_poll_of_listens hs, drainQuiet_completes s b bs hav hr hstatus]
    rfl

/-! ## A split stream -/

/-- `s` with more bytes behind its stream. -/
def appendRx (ys : List Byte) (s : State) : State := { s with rx := s.rx ++ ys }

theorem appendRx_unread (ys : List Byte) : Unread (appendRx ys) := by
  constructor <;> intros <;> rfl

/-- Where a POLL returns false, the POLL with more bytes behind its stream has read the same bytes and goes on with those. -/
theorem drainQuiet_appendRx (ys : List Byte) (s : State) (h : s.listens = true) (hfalse : (drainQuiet s.rx s).result = .flag false) :
    (setRx ys (drainQuiet s.rx s)).listens = true ∧
      drainQuiet (appendRx ys s).rx (appendRx ys s) = drainQuiet ys (setRx ys (drainQuiet s.rx s)) := by
  let d := drainQuiet (appendRx ys s).rx (appendRx ys s)
  refine listening_drain (fun t => drainQuiet (appendRx ys t).rx (appendRx ys t) = d)
    (fun u => u.result = .flag false → (setRx ys u).listens = true ∧ d = drainQuiet ys (setRx ys u))
    ?goesOn ?completes ?ends s h rfl hfalse
  case goesOn =>
    intro b rest t ht hr hd hc
    have hcons : (appendRx ys t).rx = b :: (rest ++ ys) := by rw [appendRx, hr]; rfl
    rw [← hd, drainQuiet_unread_continued (appendRx_unread ys) (rxAvailable_pos_of_cons (appendRx ys t) ht hcons) hcons rfl hc]
  case completes =>
    intro b rest t _ _ _ _ hres
    cases hres
  case ends =>
    intro t ht hr hd _
    have hrest : appendRx ys t = setRx ys t := by rw [appendRx, hr]; rfl
    refine ⟨ht, ?_⟩
    rw [← hd, hrest]
    exact (drainQuiet_setResult (.flag false) (setRx ys t) ht).symm

/-- Settles O39: the one POLL has read `xs` when the first of the two returns, and what is left to it is the second. -/
theorem pollResumesWhereItStopped : Obligations.PollResumesWhereItStopped := by
  intro s t xs ys hs hrx ht hfalse
  have hxs : (setRx xs s).listens = true := hs
  have hwhole : appendRx ys (setRx xs s) = s := by rw [appendRx, setRx_rx, ← hrx]; rfl
  obtain rfl := Host.Outcome.next.inj ((exec_poll_of_listens hxs).symm.trans ht)
  obtain ⟨hnext, hd⟩ := drainQuiet_appendRx ys (setRx xs s) hxs hfalse
  rw [hwhole] at hd
  rw [exec_poll_of_listens hs, hd]
  exact (exec_poll_of_listens hnext).symm

/-! ## A source that always claims bytes -/

/-- `s` with a transport that answers `k` whatever the stream holds (log 13). -/
def withClaim (k : Int) (s : State) : State := { s with rxClaim := some k }

theorem withClaim_unread (k : Int) : Unread (withClaim k) := by
  constructor <;> intros <;> rfl

theorem rxAvailable_withClaim (k : Int) {s : State} (h : s.listens = true) : rxAvailable (withClaim k s) = k := by
  obtain ⟨-, -, hh, -⟩ := (listens_iff s).mp h
  simp only [State.honest, Bool.and_eq_true] at hh
  exact if_pos hh.1

/-- What the claim makes of the honest POLL's last state `u`: the same, or the fault with every effect kept. -/
def LiesLike (k : Int) (last : OpResult) (d u : State) : Prop :=
  u.fault = none ∧ ((u.result = .flag true ∧ u.ready = true ∧ d = withClaim k u) ∨
    (u.result = .flag false ∧ u.rx = [] ∧ d = { withClaim k u with result := last, fault := some .transport }))

theorem drainQuiet_withClaim {k : Int} (hk : 0 < k) {s : State} (h : s.listens = true) (hf : s.fault = none) :
    LiesLike k s.result (drainQuiet (withClaim k s).rx (withClaim k s)) (drainQuiet s.rx s) := by
  let d := drainQuiet (withClaim k s).rx (withClaim k s)
  refine listening_drain
    (fun t => drainQuiet (withClaim k t).rx (withClaim k t) = d ∧ t.fault = none ∧ t.result = s.result)
    (LiesLike k s.result d) ?goesOn ?completes ?ends s h ⟨rfl, hf, rfl⟩
  case goesOn =>
    rintro b rest t ht hr ⟨hd, hfault, hres⟩ hc
    refine ⟨?_, (receiveByte_fault b _).trans hfault, (receiveByte_result b _).trans hres⟩
    rw [← hd, drainQuiet_unread_continued (withClaim_unread k) (by rwa [rxAvailable_withClaim k ht]) hr rfl hc]
  case completes =>
    rintro b rest t ht hr ⟨hd, hfault, -⟩ hc
    refine ⟨(receiveByte_fault b _).trans hfault, .inl ⟨rfl, receiveByte_ready_of_completed hc, ?_⟩⟩
    rw [← hd, drainQuiet_unread_completed (withClaim_unread k) (by rwa [rxAvailable_withClaim k ht]) hr rfl hc]
    rfl
  case ends =>
    rintro t ht hr ⟨hd, hfault, hres⟩
    have hav : 0 < rxAvailable (withClaim k t) := by rwa [rxAvailable_withClaim k ht]
    have hrx : (withClaim k t).rx = [] := hr
    refine ⟨hfault, .inr ⟨rfl, hr, ?_⟩⟩
    rw [← hd, drainQuiet_of_broken hav hrx, raiseFault_eq .transport (withClaim k t) hfault, ← hres]
    rfl

/-- Settles O37: the claimed stream is read as the honest one, and at its end the claim is broken. -/
theorem pollOnLyingTransportFaults : Obligations.PollOnLyingTransportFaults := by
  intro s k hl hr hq hf ha hclaim hk
  let honest : State := { s with rxClaim := none }
  have hlistens : honest.listens = true := (listens_iff honest).mpr ⟨hl, hr, by simp [honest, State.honest, ha], hq⟩
  have hlies : withClaim k honest = s := by rw [withClaim, ← hclaim]
  obtain ⟨hfault, hend⟩ := drainQuiet_withClaim hk hlistens hf
  rw [hlies] at hend
  refine ⟨_, exec_poll_of_listens hlistens, hfault, ?_⟩
  rw [exec_poll_of_quiet hl hr hq]
  obtain ⟨hres, hready, hd⟩ | ⟨hres, hrx, hd⟩ := hend
  · exact .inl ⟨hres, hready, congrArg _ hd⟩
  · exact .inr ⟨hres, hrx, congrArg _ hd⟩

end Sys2Proof.Machine
end

section
/-! SUPPORT. What POLL holds of a frame is what it read since the start marker (10_state.md R44 items 2 and 4). -/

namespace Sys2Proof.Machine

/-! ## The symbols a state holds -/

/-- The symbols of the bytes below `pos`, and the held one. -/
def heldSymbols (s : State) : List Byte := (payload s).flatMap symbolsOf ++ if s.hiPend then [encSymbol s.hiNib] else []

theorem symbolsOf_joinNibbles (h l : Nibble) : symbolsOf (joinNibbles h l) = [encSymbol h, encSymbol l] := by
  rw [symbolsOf, hiNibble_joinNibbles, loNibble_joinNibbles]

theorem heldSymbols_markEnd (s : State) : heldSymbols (markEnd s) = heldSymbols s := rfl

theorem heldSymbols_holdNibble (n : Nibble) (s : State) (hp : s.hiPend = false) :
    heldSymbols (holdNibble n s) = heldSymbols s ++ [encSymbol n] := by
  rw [heldSymbols, heldSymbols, hp, holdNibble_hiPend, holdNibble_hiNib, if_pos rfl, if_neg Bool.false_ne_true, List.append_nil]
  rfl

/-- A held symbol and the one after it are the symbols of the pair's byte. -/
theorem flatMap_symbolsOf_pair (n : Nibble) (s : State) (hp : s.hiPend = true) :
    (payload s ++ [joinNibbles s.hiNib n]).flatMap symbolsOf = heldSymbols s ++ [encSymbol n] := by
  simp [heldSymbols, hp, symbolsOf_joinNibbles]

theorem heldSymbols_appendByte (n : Nibble) (s : State) (hp : s.hiPend = true) (hroom : s.pos < s.cap) :
    heldSymbols (appendByte (joinNibbles s.hiNib n) (clearPair s)) = heldSymbols s ++ [encSymbol n] := by
  have hpayload : payload (appendByte (joinNibbles s.hiNib n) (clearPair s)) = payload s ++ [joinNibbles s.hiNib n] :=
    payload_appendByte _ (clearPair s) hroom
  rw [← flatMap_symbolsOf_pair n s hp, ← hpayload, heldSymbols, appendByte_hiPend, clearPair_hiPend, if_neg Bool.false_ne_true,
    List.append_nil]

/-! ## The bytes since the start marker -/

/-- The bytes `frame` since the start marker are what `t` has assembled: the end marker and the symbols it holds. -/
structure Assembled (c : Config) (frame : List Byte) (t : State) : Prop where
  no_start : c.stx ∉ frame
  end_seen : t.etxSeen = true ↔ c.etx ∈ frame
  symbols : frame.filter (fun b => b != c.etx) = heldSymbols t

theorem assembled_openFrame (c : Config) (t : State) : Assembled c [] (openFrame t) where
  no_start := List.not_mem_nil
  end_seen := by simp
  symbols := rfl

section
variable {c : Config} {frame : List Byte} {t : State} (h : Assembled c frame t)
include h

/-- The stream is no part of what is assembled. -/
theorem Assembled.setRx (rest : List Byte) : Assembled c frame (setRx rest t) := { h with }

theorem Assembled.markEnd (hne : c.etx ≠ c.stx) : Assembled c (frame ++ [c.etx]) (markEnd t) where
  no_start := by simpa [h.no_start] using hne.symm
  end_seen := by simp
  symbols := by
    rw [List.filter_append, h.symbols, heldSymbols_markEnd]
    simp

/-- One more byte that is no marker and that the state holds as one more symbol. -/
theorem Assembled.symbol {b : Byte} {u : State} (hs : b ≠ c.stx) (he : b ≠ c.etx) (hx : u.etxSeen = t.etxSeen)
    (hu : heldSymbols u = heldSymbols t ++ [b]) : Assembled c (frame ++ [b]) u where
  no_start := by simpa [h.no_start] using hs.symm
  end_seen := by simp [hx, h.end_seen, he.symm]
  symbols := by simp [hu, h.symbols, he]

/-- Where the pair's byte is the checksum, the symbols since the start marker are those of the payload and of its checksum. -/
theorem Assembled.completed {b : Byte} {n : Nibble} (hs : b ≠ c.stx) (he : b ≠ c.etx) (hn : b = encSymbol n) (hp : t.hiPend = true)
    (hx : t.etxSeen = true) (hsum : joinNibbles t.hiNib n = crcOf (payload t)) :
    c.stx ∉ frame ++ [b] ∧ c.etx ∈ frame ++ [b] ∧
      (frame ++ [b]).filter (fun x => x != c.etx) = (payload t ++ [crcOf (payload t)]).flatMap symbolsOf := by
  refine ⟨by simpa [h.no_start] using hs.symm, List.mem_append_left _ (h.end_seen.mp hx), ?_⟩
  rw [← hsum, flatMap_symbolsOf_pair n t hp, ← hn]
  simp [h.symbols, he]

end

/-! ## POLL from outside a frame -/

/-- What POLL of `s` keeps before every read: a frame is open only with the bytes since the stream's last start marker assembled. -/
structure Assembling (s t : State) : Prop where
  cfg : t.cfg = s.cfg
  read : ∃ read, s.rx = read ++ t.rx
  frame : t.started = true → ∃ before frame, s.rx = before ++ [s.cfg.stx] ++ frame ++ t.rx ∧ Assembled s.cfg frame t

/-- What the statement says of a packet delivered. -/
def Delivers (s t : State) : Prop := ∃ before frame,
  s.rx = before ++ [s.cfg.stx] ++ frame ++ t.rx ∧ s.cfg.stx ∉ frame ∧ s.cfg.etx ∈ frame ∧
  frame.filter (fun b => b != s.cfg.etx) = (payload t ++ [crcOf (payload t)]).flatMap symbolsOf

section
variable {s t u : State} (h : Assembling s t) {b : Byte} {rest : List Byte} (hr : t.rx = b :: rest) (hc : u.cfg = t.cfg) (hrx : u.rx = rest)
include h hr hc hrx

theorem Assembling.read_one : u.cfg = s.cfg ∧ ∃ read, s.rx = read ++ u.rx := by
  obtain ⟨read, hread⟩ := h.read
  exact ⟨hc.trans h.cfg, read ++ [b], by rw [hread, hr, hrx]; simp⟩

/-- A byte that leaves no frame open. -/
theorem Assembling.to_idle (hf : u.started = false) : Assembling s u := by
  obtain ⟨hcfg, hread⟩ := h.read_one hr hc hrx
  exact ⟨hcfg, hread, fun e => absurd e (ne_true_of_eq_false hf)⟩

/-- A start marker. -/
theorem Assembling.to_open (hb : b = s.cfg.stx) (hu : Assembled s.cfg [] u) : Assembling s u := by
  obtain ⟨hcfg, hread⟩ := h.read_one hr hc hrx
  obtain ⟨before, hbefore⟩ := h.read
  exact ⟨hcfg, hread, fun _ => ⟨before, [], by rw [hbefore, hr, hrx, hb]; simp, hu⟩⟩

/-- A byte that the open frame takes. -/
theorem Assembling.to_longer (hf : u.started = true → t.started = true)
    (hu : ∀ frame, Assembled s.cfg frame t → Assembled s.cfg (frame ++ [b]) u) : Assembling s u := by
  obtain ⟨hcfg, hread⟩ := h.read_one hr hc hrx
  refine ⟨hcfg, hread, fun e => ?_⟩
  obtain ⟨before, frame, hstream, hframe⟩ := h.frame (hf e)
  exact ⟨before, frame ++ [b], by rw [hstream, hr, hrx]; simp, hu frame hframe⟩

end

section
variable {s t : State} (h : Assembling s t) {b : Byte} {rest : List Byte} (hr : t.rx = b :: rest)
include h hr

theorem Assembling.continued (hc : (receiveByte b (setRx rest t)).1 = .continued) : Assembling s (receiveByte b (setRx rest t)).2 := by
  have hcase := receiveByte_cases b (setRx rest t)
  generalize receiveByte b (setRx rest t) = r at hcase hc
  have hcfg : (setRx rest t).cfg = s.cfg := h.cfg
  cases hcase with
  | startMarker hs => exact h.to_open hr rfl rfl (hcfg ▸ hs) (assembled_openFrame _ _)
  | endMarker hs he =>
    rw [hcfg] at hs he
    exact h.to_longer hr rfl rfl id fun frame hframe => he ▸ (hframe.setRx rest).markEnd (he ▸ hs)
  | noise _ _ hf => exact h.to_idle hr rfl rfl hf
  | invalid | mismatched | overflow => exact h.to_idle hr rfl rfl rfl
  | first n hs he hf hn hp =>
    rw [hcfg] at hs he
    refine h.to_longer hr rfl rfl id fun frame hframe => (hframe.setRx rest).symbol hs he rfl ?_
    rw [eq_encSymbol_of_decSymbol b n hn]
    exact heldSymbols_holdNibble n (setRx rest t) hp
  | appended n hs he hf hn hp hx hroom =>
    rw [hcfg] at hs he
    refine h.to_longer hr rfl rfl id fun frame hframe => (hframe.setRx rest).symbol hs he rfl ?_
    rw [eq_encSymbol_of_decSymbol b n hn]
    exact heldSymbols_appendByte n (setRx rest t) hp hroom
  | matched => cases hc

theorem Assembling.completed (hc : (receiveByte b (setRx rest t)).1 = .completed) : Delivers s (receiveByte b (setRx rest t)).2 := by
  have hcase := receiveByte_cases b (setRx rest t)
  generalize receiveByte b (setRx rest t) = r at hcase hc
  have hcfg : (setRx rest t).cfg = s.cfg := h.cfg
  cases hcase with
  | startMarker | endMarker | noise | invalid | first | mismatched | appended | overflow => cases hc
  | matched n hs he hf hn hp hx hsum =>
    rw [hcfg] at hs he
    obtain ⟨before, frame, hstream, hframe⟩ := h.frame hf
    refine ⟨before, frame ++ [b], by rw [hstream, hr]; simp, ?_⟩
    exact hframe.completed hs he (eq_encSymbol_of_decSymbol b n hn) hp hx hsum

end

/-- Settles O58: the loop keeps `Assembling`, and its two ends are the two clauses. -/
theorem pollHoldsBytesSinceStartMarker : Obligations.PollHoldsBytesSinceStartMarker := by
  intro s hs hf
  refine ⟨_, exec_poll_of_listens hs, ?_⟩
  have hstart : Assembling s s := ⟨rfl, ⟨[], rfl⟩, fun e => absurd e (ne_true_of_eq_false hf)⟩
  refine listening_drain (Assembling s) (fun t => (t.result = .flag true → Delivers s t) ∧ (t.result = .flag false → t.started = true →
    ∃ before frame, s.rx = before ++ [s.cfg.stx] ++ frame ∧ s.cfg.stx ∉ frame ∧ (t.etxSeen = true ↔ s.cfg.etx ∈ frame) ∧
      frame.filter (fun b => b != s.cfg.etx) = heldSymbols t)) ?goesOn ?completes ?ends s hs hstart
  case goesOn => exact fun b rest t _ hr h hc => h.continued hr hc
  case completes => exact fun b rest t _ hr h hc => ⟨fun _ => h.completed hr hc, nofun⟩
  case ends =>
    refine fun t _ hr h => ⟨nofun, fun _ hopen => ?_⟩
    obtain ⟨before, frame, hstream, hframe⟩ := h.frame hopen
    rw [hr, List.append_nil] at hstream
    exact ⟨before, frame, hstream, hframe.no_start, hframe.end_seen, hframe.symbols⟩

end Sys2Proof.Machine
end

section
/-! SUPPORT. Reading a run of bytes that completes no packet, and POLL over a stream that starts with one. -/

namespace Sys2Proof.Machine

/-- The receiver takes the bytes one by one from `s` to `t`, and none of them completes a packet. -/
inductive Reads : State → List Byte → State → Prop where
  | nil (s : State) : Reads s [] s
  | cons {s t u : State} {b : Byte} {xs : List Byte} (hb : receiveByte b s = (.continued, t)) (h : Reads t xs u) : Reads s (b :: xs) u

namespace Reads

theorem one {s t : State} {b : Byte} (hb : receiveByte b s = (.continued, t)) : Reads s [b] t := .cons hb (.nil t)

theorem append {s t u : State} {xs ys : List Byte} (h : Reads s xs t) (h' : Reads t ys u) : Reads s (xs ++ ys) u := by
  induction h with
  | nil => exact h'
  | cons hb _ ih => exact .cons hb (ih h')

theorem split {s u : State} (xs : List Byte) {ys : List Byte} (h : Reads s (xs ++ ys) u) : ∃ t, Reads s xs t ∧ Reads t ys u := by
  induction xs generalizing s with
  | nil => exact ⟨s, .nil s, h⟩
  | cons b xs ih =>
    cases h with
    | cons hb h =>
      obtain ⟨t, ht, hu⟩ := ih h
      exact ⟨t, .cons hb ht, hu⟩

theorem cfg {s t : State} {xs : List Byte} (h : Reads s xs t) : t.cfg = s.cfg := by
  induction h with
  | nil => rfl
  | @cons s t u b xs hb _ ih =>
    have hcfg : t.cfg = s.cfg := by simpa [hb] using receiveByte_cfg b s
    exact ih.trans hcfg

/-- Over an honest source, POLL of the bytes `xs ++ ys` reads `xs` and is then the POLL of `ys` from there. -/
theorem drainQuiet {s t : State} {xs : List Byte} (ys : List Byte) (h : Reads s xs t) (hs : s.listens = true) :
    t.listens = true ∧ drainQuiet (xs ++ ys) (setRx (xs ++ ys) s) = drainQuiet ys (setRx ys t) := by
  induction h with
  | nil => exact ⟨hs, rfl⟩
  | @cons s t u b xs hb _ ih =>
    have hbyte : receiveByte b (setRx (xs ++ ys) s) = (.continued, setRx (xs ++ ys) t) := by rw [receiveByte_of_setRx, hb]
    have ht : t.listens = true := by simpa [hb] using receiveByte_listens b s hs
    have hav := rxAvailable_pos_of_cons (setRx (b :: (xs ++ ys)) s) hs rfl
    have hread := drainQuiet_goesOn (setRx (b :: (xs ++ ys)) s) b (xs ++ ys) hav rfl (congrArg Prod.fst hbyte)
    obtain ⟨hu, hrest⟩ := ih ht
    refine ⟨hu, hread.trans ?_⟩
    have hstate : (receiveByte b (Machine.setRx (xs ++ ys) (Machine.setRx (b :: (xs ++ ys)) s))).2 = setRx (xs ++ ys) t :=
      congrArg Prod.snd hbyte
    rw [hstate]
    exact hrest

end Reads

/-- The POLL of a listening state whose stream starts with bytes that complete no packet. -/
theorem exec_poll_of_reads {s t : State} {xs ys : List Byte} (hs : s.listens = true) (hr : s.rx = xs ++ ys) (h : Reads s xs t) :
    (setRx ys t).listens = true ∧ exec .poll s = .next (drainQuiet ys (setRx ys t)) := by
  obtain ⟨ht, hdrain⟩ := h.drainQuiet ys hs
  refine ⟨ht, (exec_poll_of_listens hs).trans (congrArg _ ?_)⟩
  rw [← hdrain, ← hr]
  rfl

/-- The same where the next byte completes a packet. -/
theorem exec_poll_of_completed {s t u : State} {xs more : List Byte} {b : Byte} (hs : s.listens = true) (hr : s.rx = xs ++ b :: more)
    (h : Reads s xs t) (hb : receiveByte b t = (.completed, u)) : exec .poll s = .next (setResult (.flag true) (setRx more u)) := by
  obtain ⟨ht, hpoll⟩ := exec_poll_of_reads hs hr h
  have hbyte : receiveByte b (setRx more t) = (.completed, setRx more u) := by rw [receiveByte_of_setRx, hb]
  have hdone := drainQuiet_completes (setRx (b :: more) t) b more (rxAvailable_pos_of_cons _ ht rfl) rfl (congrArg Prod.fst hbyte)
  have hstate : (receiveByte b (setRx more (setRx (b :: more) t))).2 = setRx more u := congrArg Prod.snd hbyte
  rw [hstate] at hdone
  exact hpoll.trans (congrArg _ hdone)

/-! ## The single bytes of a frame -/

theorem receiveByte_stx (s : State) : receiveByte s.cfg.stx s = (.continued, openFrame s) := by
  rw [receiveByte, if_pos rfl, startMarker]

theorem receiveByte_etx (s : State) (hne : s.cfg.etx ≠ s.cfg.stx) : receiveByte s.cfg.etx s = (.continued, markEnd s) := by
  rw [receiveByte, if_neg hne, if_pos rfl, endMarker]

theorem receiveByte_symbol (n : Nibble) (s : State) (h : LegalMarkers s.cfg) : receiveByte (encSymbol n) s = symbolInFrame n s :=
  (symbolInFrame_eq n _ s (encSymbol_ne_stx h n) (encSymbol_ne_etx h n) (decSymbol_encSymbol n)).symm

/-! ## Outside a frame -/

/-- Outside a frame every byte but the start marker leaves the machine there, and counts nothing. -/
theorem receiveByte_of_idle {s : State} {b : Byte} (hf : s.started = false) (hb : b ≠ s.cfg.stx) :
    ∃ t, receiveByte b s = (.continued, t) ∧ t.cfg = s.cfg ∧ t.started = false ∧ t.errCnt = s.errCnt := by
  by_cases he : b = s.cfg.etx
  · rw [he] at hb ⊢
    exact ⟨_, receiveByte_etx s hb, rfl, hf, rfl⟩
  · exact ⟨s, receiveByte_of_noise b s hb he hf, rfl, hf, rfl⟩

theorem reads_of_idle (xs : List Byte) {s : State} (hf : s.started = false) (hxs : s.cfg.stx ∉ xs) :
    ∃ t, Reads s xs t ∧ t.started = false ∧ t.errCnt = s.errCnt := by
  induction xs generalizing s with
  | nil => exact ⟨s, .nil s, hf, rfl⟩
  | cons b xs ih =>
    obtain ⟨hb, hrest⟩ := List.ne_and_not_mem_of_not_mem_cons hxs
    obtain ⟨t, ht, hcfg, hft, herr⟩ := receiveByte_of_idle hf (Ne.symm hb)
    obtain ⟨u, hu, hfu, herru⟩ := ih hft (hcfg ▸ hrest)
    exact ⟨u, .cons ht hu, hfu, herru.trans herr⟩

/-- POLL of a listening state that reads its way out of a frame, and then finds no start marker. -/
theorem exec_poll_of_dropped {s t : State} {xs ys : List Byte} (hs : s.listens = true) (hr : s.rx = xs ++ ys) (h : Reads s xs t)
    (hf : t.started = false) (hys : t.cfg.stx ∉ ys) :
    ∃ u, exec .poll s = .next u ∧ u.result = .flag false ∧ rxPhase u = .idle ∧ u.rx = [] ∧ u.errCnt = t.errCnt := by
  obtain ⟨v, hv, hfv, herr⟩ := reads_of_idle ys hf hys
  have hall : s.rx = (xs ++ ys) ++ [] := by rw [hr, List.append_nil]
  obtain ⟨hlistens, hpoll⟩ := exec_poll_of_reads hs hall (h.append hv)
  obtain ⟨-, hready, -⟩ := (listens_iff _).mp hlistens
  have hnone : rxAvailable (setRx [] v) ≤ 0 := by
    rw [rxAvailable_of_listens _ hlistens]
    rfl
  exact ⟨_, hpoll.trans (congrArg _ (drainQuiet_nothing _ hnone)), rfl, rxPhase_of_idle hready hfv, rfl, herr⟩

/-! ## A frame that stays open -/

/-- Only a start marker opens a frame, and only the error action counts, which closes it. -/
theorem receiveByte_stays_open {s t : State} {b : Byte} (hb : receiveByte b s = (.continued, t)) (hne : b ≠ s.cfg.stx)
    (hf : t.started = true) : s.started = true ∧ t.errCnt = s.errCnt := by
  have hcase := receiveByte_cases b s
  rw [hb] at hcase
  generalize hr : (ByteStatus.continued, t) = r at hcase
  cases hcase with
  | startMarker hs => exact absurd hs hne
  | matched => cases hr
  | endMarker | noise | first | appended =>
    cases hr
    exact ⟨hf, rfl⟩
  | invalid | mismatched | overflow =>
    cases hr
    cases hf

theorem Reads.stays_open {s t : State} {xs : List Byte} (h : Reads s xs t) (hxs : s.cfg.stx ∉ xs) (hf : t.started = true) :
    s.started = true ∧ t.errCnt = s.errCnt := by
  induction h with
  | nil => exact ⟨hf, rfl⟩
  | @cons s t u b xs hb _ ih =>
    obtain ⟨hne, hrest⟩ := List.ne_and_not_mem_of_not_mem_cons hxs
    have hcfg : t.cfg = s.cfg := (one hb).cfg
    obtain ⟨ht, herr⟩ := ih (hcfg ▸ hrest) hf
    obtain ⟨hs, herr'⟩ := receiveByte_stays_open hb (Ne.symm hne) ht
    exact ⟨hs, herr.trans herr'⟩

end Sys2Proof.Machine
end

section
/-! SUPPORT. The whole link (95_test_vectors.md part 1): a frame read whole, a frame longer than the capacity, and a frame with one bit flipped. -/

namespace Sys2Proof.Machine

/-! ## The payload of a frame -/

theorem payload_congr {s t : State} (hb : s.buf = t.buf) (hp : s.pos = t.pos) : payload s = payload t := by
  unfold payload bufRead
  rw [hb, hp]

/-- Since the start marker read in `s`, `t` has assembled the bytes `q`, and no end marker stands after it. -/
structure InPayload (s t : State) (q : List Byte) : Prop where
  cfg : t.cfg = s.cfg
  life : t.life = s.life
  cap : t.cap = s.cap
  started : t.started = true
  no_end : t.etxSeen = false
  no_held : t.hiPend = false
  payload : payload t = q
  pos : t.pos.toNat = q.length
  errCnt : t.errCnt = s.errCnt
  start_time : t.tStart = nowValue s

theorem inPayload_openFrame (s : State) : InPayload s (openFrame s) [] := ⟨rfl, rfl, rfl, rfl, rfl, rfl, rfl, rfl, rfl, rfl⟩

section
variable {s t : State} {q : List Byte} (h : InPayload s t q) (hm : LegalMarkers s.cfg) (b : Byte)
include h hm

theorem InPayload.legal : LegalMarkers t.cfg := by rwa [h.cfg]

/-- The first symbol of a byte is held. -/
theorem InPayload.reads_first : Reads t [encSymbol (hiNibble b)] (holdNibble (hiNibble b) t) :=
  .one (by rw [receiveByte_symbol _ t (h.legal hm), symbolInFrame_of_first _ t h.started h.no_held])

/-- The two symbols of a byte append it while there is room. -/
theorem InPayload.reads_byte (hroom : q.length < s.cap.toNat) : ∃ u, Reads t (symbolsOf b) u ∧ InPayload s u (q ++ [b]) := by
  let held := holdNibble (hiNibble b) t
  have hlt : held.pos < held.cap := by
    rw [BitVec.lt_def, holdNibble_pos, holdNibble_cap, h.pos, h.cap]
    exact hroom
  have hbyte : joinNibbles held.hiNib (loNibble b) = b := joinNibbles_hi_lo b
  have hsecond : receiveByte (encSymbol (loNibble b)) held = (.continued, appendByte b (clearPair held)) := by
    rw [receiveByte_symbol _ held (h.legal hm), symbolInFrame_of_room _ held h.started rfl h.no_end hlt, hbyte]
  refine ⟨_, (h.reads_first hm b).append (.one hsecond), ?_⟩
  exact
    { cfg := h.cfg, life := h.life, cap := h.cap, started := h.started, no_end := h.no_end, no_held := rfl
      payload := by
        rw [payload_appendByte b (clearPair held) hlt, payload_clearPair]
        exact congrArg (· ++ [b]) h.payload
      pos := by
        rw [appendByte_pos_toNat b (clearPair held) hlt, List.length_append, List.length_singleton]
        exact congrArg (· + 1) h.pos
      errCnt := h.errCnt
      start_time := h.start_time }

end

/-- Payload that fits is read whole. -/
theorem InPayload.reads_payload {s t : State} {q : List Byte} (p : List Byte) (h : InPayload s t q) (hm : LegalMarkers s.cfg)
    (hfits : q.length + p.length ≤ s.cap.toNat) : ∃ u, Reads t (p.flatMap symbolsOf) u ∧ InPayload s u (q ++ p) := by
  induction p generalizing t q with
  | nil => exact ⟨t, .nil t, by rwa [List.append_nil]⟩
  | cons b p ih =>
    rw [List.length_cons] at hfits
    obtain ⟨u, hread, hu⟩ := h.reads_byte hm b (by omega)
    obtain ⟨v, hrest, hv⟩ := ih hu (by rw [List.length_append, List.length_singleton]; omega)
    exact ⟨v, hread.append hrest, by rwa [← List.append_cons] at hv⟩

/-- From any state, a start marker and payload that fits. -/
theorem reads_start_payload (s : State) (p : List Byte) (hm : LegalMarkers s.cfg) (hfits : p.length ≤ s.cap.toNat) :
    ∃ u, Reads s (s.cfg.stx :: p.flatMap symbolsOf) u ∧ InPayload s u p := by
  obtain ⟨u, hread, hu⟩ := (inPayload_openFrame s).reads_payload p hm (by simpa using hfits)
  exact ⟨u, .cons (receiveByte_stx s) hread, hu⟩

/-! ## The frame read whole -/

/-- The frame but for its last symbol. -/
def frameBody (c : Config) (p : List Byte) : List Byte :=
  c.stx :: p.flatMap symbolsOf ++ [c.etx, encSymbol (hiNibble (crcOf p))]

theorem frameOf_eq_body (c : Config) (p : List Byte) : frameOf c p = frameBody c p ++ [encSymbol (loNibble (crcOf p))] := by
  simp [frameOf_eq, frameBody, symbolsOf]

/-- A frame that fits is read up to its last symbol with nothing completed, into the state that awaits that symbol. -/
theorem reads_frameBody (s : State) (p : List Byte) (hm : LegalMarkers s.cfg) (hfits : p.length ≤ s.cap.toNat) :
    ∃ t, InPayload s t p ∧ Reads s (frameBody s.cfg p) (holdNibble (hiNibble (crcOf p)) (markEnd t)) := by
  obtain ⟨t, hread, ht⟩ := reads_start_payload s p hm hfits
  have hetx : receiveByte s.cfg.etx t = (.continued, markEnd t) := by
    rw [← ht.cfg]
    exact receiveByte_etx t (ht.legal hm).ne.symm
  have hfirst : receiveByte (encSymbol (hiNibble (crcOf p))) (markEnd t) = (.continued, holdNibble (hiNibble (crcOf p)) (markEnd t)) := by
    rw [receiveByte_symbol _ (markEnd t) (ht.legal hm), symbolInFrame_of_first _ (markEnd t) ht.started ht.no_held]
  exact ⟨t, ht, hread.append (.cons hetx (.one hfirst))⟩

/-- What POLL over the frame of `p` leaves: that packet ready, with the bytes after the frame unread. -/
structure Received (s t : State) (p more : List Byte) : Prop where
  life : t.life = s.life
  started : t.started = true
  ready : t.ready = true
  result : t.result = .flag true
  rx : t.rx = more
  payload : payload t = p
  pos : t.pos.toNat = p.length
  errCnt : t.errCnt = s.errCnt
  start_time : t.tStart = nowValue s

/-- The writes after the payload: the end marker, the checksum's symbols, and POLL's own. -/
theorem InPayload.received {s t : State} {p : List Byte} (h : InPayload s t p) (n : Nibble) (more : List Byte) :
    Received s (setResult (.flag true) (setRx more (markReady (clearPair (holdNibble n (markEnd t)))))) p more where
  life := by simp [h.life]
  started := by simp [h.started]
  ready := by simp
  result := by simp
  rx := by simp
  payload := (payload_congr (by simp) (by simp)).trans h.payload
  pos := by simp [h.pos]
  errCnt := by simp [h.errCnt]
  start_time := by simp [h.start_time]

theorem exec_poll_frame (s : State) (p more : List Byte) (hs : s.listens = true) (hm : LegalMarkers s.cfg)
    (hfits : p.length ≤ s.cap.toNat) (hr : s.rx = frameOf s.cfg p ++ more) : ∃ t, exec .poll s = .next t ∧ Received s t p more := by
  obtain ⟨t, ht, hread⟩ := reads_frameBody s p hm hfits
  let u := holdNibble (hiNibble (crcOf p)) (markEnd t)
  have hsplit : s.rx = frameBody s.cfg p ++ encSymbol (loNibble (crcOf p)) :: more := by
    rw [hr, frameOf_eq_body, List.append_assoc, List.singleton_append]
  have hsum : joinNibbles u.hiNib (loNibble (crcOf p)) = crcOf (payload u) := by
    have hpayload : payload u = p := ht.payload
    rw [hpayload]
    exact joinNibbles_hi_lo (crcOf p)
  have hlast : receiveByte (encSymbol (loNibble (crcOf p))) u = (.completed, markReady (clearPair u)) := by
    rw [receiveByte_symbol _ u (ht.legal hm), symbolInFrame_of_match _ u ht.started rfl rfl hsum]
  exact ⟨_, exec_poll_of_completed hs hsplit hread hlast, ht.received _ more⟩

/-! ## What the host then reads -/

section
variable {s t : State} {p more : List Byte} (h : Received s t p more) (hl : s.life = .live)
include h hl

theorem Received.rdLen : exec .rdLen t = .next { t with result := .byte (BitVec.ofNat 8 p.length) } := by
  have hpos : t.pos = BitVec.ofNat 8 p.length := by rw [← h.pos, BitVec.ofNat_toNat, BitVec.setWidth_eq]
  have hview : lenView t = .byte (BitVec.ofNat 8 p.length) := by rw [lenView, if_pos h.ready, hpos]
  exact hview ▸ rdLen_gated.exec_of_live t (h.life.trans hl)

theorem Received.rdData (i : Nat) (hi : i < p.length) : exec (.rdData (BitVec.ofNat 8 i)) t = .next { t with result := .byte p[i] } := by
  have hsmall : (BitVec.ofNat 8 i).toNat = i := by
    have hpos : t.pos.toNat < 256 := t.pos.isLt
    have hlen := h.pos
    rw [BitVec.toNat_ofNat]
    omega
  have hlt : BitVec.ofNat 8 i < t.pos := by rwa [BitVec.lt_def, hsmall, h.pos]
  have hbyte : bufRead t i = p[i] := by
    simp only [← h.payload, Machine.payload, List.getElem_map, List.getElem_range]
  have hview : dataView (BitVec.ofNat 8 i) t = .byte p[i] := by rw [dataView_of_exposed _ t h.ready hlt, hsmall, hbyte]
  exact hview ▸ (rdData_gated _).exec_of_live t (h.life.trans hl)

theorem Received.rdTstart : exec .rdTstart t = .next { t with result := .stamp (nowValue s) } := by
  have hview : startView t = .stamp (nowValue s) := by rw [startView_of_started t h.started, h.start_time]
  exact hview ▸ rdTstart_gated.exec_of_live t (h.life.trans hl)

end

/-- Settles O41: POLL reads the frame up to the checksum's second symbol, which matches, and the reads expose what was assembled. -/
theorem frameRoundTrip : Obligations.FrameRoundTrip := by
  intro s p more hs hc hfits hr
  obtain ⟨t, hpoll, ht⟩ := exec_poll_frame s p more hs (legalMarkers_of_wf hc) hfits hr
  obtain ⟨hl, -⟩ := (listens_iff s).mp hs
  refine ⟨t, hpoll, ht.result, rxPhase_of_ready ht.ready, ht.rx, ht.errCnt, ht.rdLen hl, ht.rdData hl, nowValue s, ht.rdTstart hl,
    nowValue_lt s, fun u hu => ?_⟩
  rw [nowValue, hu]

/-! ## A frame longer than the capacity -/

/-- The bytes of a frame after its start marker hold no other. -/
theorem stx_not_mem_frame_tail {c : Config} (hm : LegalMarkers c) (p q : List Byte) :
    c.stx ∉ p.flatMap symbolsOf ++ c.etx :: q.flatMap symbolsOf := by
  have hsym : ∀ r : List Byte, c.stx ∉ r.flatMap symbolsOf := fun r hmem =>
    ne_true_of_eq_false hm.stx_invalid (symbolValid_of_mem_flatMap hmem)
  simp only [List.mem_append, List.mem_cons, not_or]
  exact ⟨hsym p, hm.ne, hsym q⟩

/-- At the capacity the next byte's second symbol runs the error action. -/
theorem InPayload.reads_overflow {s t : State} {q : List Byte} (h : InPayload s t q) (hm : LegalMarkers s.cfg) (b : Byte)
    (hfull : q.length = s.cap.toNat) : Reads t (symbolsOf b) (errorAction (holdNibble (hiNibble b) t)) := by
  have hroom : ¬ (holdNibble (hiNibble b) t).pos < (holdNibble (hiNibble b) t).cap := by
    rw [BitVec.lt_def, holdNibble_pos, holdNibble_cap, h.pos, h.cap, hfull]
    exact lt_irrefl _
  refine (h.reads_first hm b).append (.one ?_)
  rw [receiveByte_symbol _ (holdNibble (hiNibble b) t) (h.legal hm)]
  exact symbolInFrame_of_full _ _ h.started rfl h.no_end hroom

/-- A payload that does not fit is the part that does, one more byte, and the rest. -/
theorem exists_overflow_split (p : List Byte) (n : Nat) (h : n < p.length) : ∃ q b rest, p = q ++ b :: rest ∧ q.length = n :=
  ⟨p.take n, p[n], p.drop (n + 1), by simp, by simp; omega⟩

/-- Settles O42: the byte past the capacity drops the frame, no start marker follows in it, and the buffer's frame is POLL's own. -/
theorem overflowingFrameCountsOneError : Obligations.OverflowingFrameCountsOneError := by
  intro s p hs hc hlong hr
  have hm := legalMarkers_of_wf hc
  obtain ⟨q, b, rest, rfl, hq⟩ := exists_overflow_split p s.cap.toNat hlong
  obtain ⟨t, hread, ht⟩ := reads_start_payload s q hm hq.le
  have hsplit : s.rx = (s.cfg.stx :: q.flatMap symbolsOf ++ symbolsOf b) ++
      (rest.flatMap symbolsOf ++ s.cfg.etx :: [crcOf (q ++ b :: rest)].flatMap symbolsOf) := by
    rw [hr, frameOf_eq]
    simp
  have htail := stx_not_mem_frame_tail hm rest [crcOf (q ++ b :: rest)]
  have hcfg : (errorAction (holdNibble (hiNibble b) t)).cfg = s.cfg := ht.cfg
  obtain ⟨u, hpoll, hres, hphase, hrx, herr⟩ :=
    exec_poll_of_dropped hs hsplit (hread.append (ht.reads_overflow hm b hq)) rfl (by rwa [hcfg])
  obtain ⟨hl, hready, -, hquiet⟩ := (listens_iff s).mp hs
  obtain ⟨u', hpoll', -, hbuf, -⟩ := pollFrame s hl hready hquiet
  obtain rfl := Host.Outcome.next.inj (hpoll.symm.trans hpoll')
  refine ⟨u, hpoll, hres, hphase, hrx, ?_, hbuf⟩
  rw [herr, errorAction_errCnt, holdNibble_cfg, holdNibble_errCnt, ht.cfg, ht.errCnt]

/-! ## A flipped bit -/

/-- Every byte of a run of symbols is a nibble's. -/
theorem exists_encSymbol_of_mem {x : Byte} {p : List Byte} (h : x ∈ p.flatMap symbolsOf) : ∃ n, x = encSymbol n :=
  ⟨hiNibble x, (encSymbol_hiNibble x (symbolValid_of_mem_flatMap h)).symm⟩

/-- Every position of a frame but those of the two markers holds a symbol. -/
theorem exists_encSymbol_of_frame (c : Config) (p : List Byte) (j : Nat) (hpos : 0 < j) (hj : j < (frameOf c p).length)
    (hne : j ≠ 2 * p.length + 1) : ∃ n, (frameOf c p).getD j 0#8 = encSymbol n := by
  obtain ⟨i, rfl⟩ : ∃ i, j = i + 1 := ⟨j - 1, by omega⟩
  have hlen := length_flatMap_symbolsOf p
  rw [frameOf_eq] at hj ⊢
  rw [List.getD_eq_getElem _ _ hj, List.getElem_cons_succ]
  rw [List.length_cons, Nat.add_lt_add_iff_right] at hj
  by_cases hi : i < (p.flatMap symbolsOf).length
  · rw [List.getElem_append_left hi]
    exact exists_encSymbol_of_mem (List.getElem_mem hi)
  · obtain ⟨d, hd⟩ : ∃ d, i - (p.flatMap symbolsOf).length = d + 1 := ⟨i - (p.flatMap symbolsOf).length - 1, by omega⟩
    rw [List.getElem_append_right (by omega)]
    simp only [hd, List.getElem_cons_succ]
    exact exists_encSymbol_of_mem (List.getElem_mem _)

/-- A byte inside a frame that is no marker and no symbol runs the error action. -/
theorem reads_invalid {s : State} {x : Byte} (hf : s.started = true) (hs : x ≠ s.cfg.stx) (he : x ≠ s.cfg.etx)
    (hx : symbolValid x = false) : Reads s [x] (errorAction s) :=
  .one (by rw [receiveByte_of_invalid x s hs he hf hx, invalidSymbol])

/-- No start marker stands after the first byte. -/
theorem stx_not_mem_drop_frame {c : Config} (hm : LegalMarkers c) (p : List Byte) {j : Nat} (hpos : 0 < j) :
    c.stx ∉ (frameOf c p).drop j := by
  obtain ⟨i, rfl⟩ : ∃ i, j = i + 1 := ⟨j - 1, by omega⟩
  rw [frameOf_eq, List.drop_succ_cons]
  exact fun hmem => stx_not_mem_frame_tail hm p [crcOf p] (List.mem_of_mem_drop hmem)

/-- Part of a frame, with its start marker and without its last symbol, is read into a frame that is still open. -/
theorem reads_frame_part (s : State) (p : List Byte) (j : Nat) (hm : LegalMarkers s.cfg) (hfits : p.length ≤ s.cap.toNat) (hpos : 0 < j)
    (hj : j < (frameOf s.cfg p).length) :
    ∃ t, Reads s ((frameOf s.cfg p).take j) t ∧ t.started = true ∧ t.errCnt = s.errCnt := by
  obtain ⟨t, ht, hbody⟩ := reads_frameBody s p hm hfits
  have htail := stx_not_mem_drop_frame hm p hpos
  rw [frameOf_eq_body, List.length_append, List.length_singleton] at hj
  rw [frameOf_eq_body, List.take_append_of_le_length (by omega)]
  rw [frameOf_eq_body, List.drop_append_of_le_length (by omega)] at htail
  rw [← List.take_append_drop j (frameBody s.cfg p)] at hbody
  obtain ⟨u, hu, hrest⟩ := hbody.split
  have hno : u.cfg.stx ∉ (frameBody s.cfg p).drop j := fun hmem => htail (List.mem_append_left _ (hu.cfg ▸ hmem))
  obtain ⟨hf, herr⟩ := hrest.stays_open hno ht.started
  exact ⟨u, hu, hf, herr.symm.trans ht.errCnt⟩

/-- Settles O43: up to the flipped bit the frame stays open with nothing counted, the byte with the flipped bit is the one error, and no
start marker follows. -/
theorem oneCorruptBitCountsOneError : Obligations.OneCorruptBitCountsOneError := by
  intro s p j k hs hstx hetx hfits hpos hj hne hr
  have hm : LegalMarkers s.cfg := ⟨by rw [hstx, hetx]; decide, by rw [hstx]; decide, by rw [hetx]; decide⟩
  obtain ⟨n, hn⟩ := exists_encSymbol_of_frame s.cfg p j hpos hj hne
  obtain ⟨hinvalid, hnstx, hnetx⟩ := oneBitChangeIsInvalid n k
  obtain ⟨t, hread, hf, herr⟩ := reads_frame_part s p j hm hfits hpos hj
  have hcfg := hread.cfg
  have hbad := reads_invalid hf (by rwa [hcfg, hstx]) (by rwa [hcfg, hetx]) hinvalid
  have hsplit : s.rx = ((frameOf s.cfg p).take j ++ [encSymbol n ^^^ (1#8 <<< k.val)]) ++ (frameOf s.cfg p).drop (j + 1) := by
    rw [hr, hn, List.set_eq_take_append_cons_drop, if_pos hj, List.append_assoc, List.singleton_append]
  have htail : (errorAction t).cfg.stx ∉ (frameOf s.cfg p).drop (j + 1) := by
    rw [errorAction_cfg, hcfg]
    exact stx_not_mem_drop_frame hm p j.succ_pos
  obtain ⟨u, hpoll, hres, hphase, hrx, hcount⟩ := exec_poll_of_dropped hs hsplit (hread.append hbad) rfl htail
  exact ⟨u, hpoll, hres, hphase, hrx, by rw [hcount, errorAction_errCnt, hcfg, herr]⟩

end Sys2Proof.Machine
end
